-- ==== Sys2Proof/Word.lean ====
section
/-! DEFINITION. The plainest words of the block: bytes, 16-bit words, the 9-bit scaled width, 32-bit fields. -/

namespace Sys2Proof

/-- A byte is 8 bits; a DurationSample and every payload element is one byte (R61, R91). -/
abbrev Byte := BitVec 8

/-- A 16-bit word: the checksum, a status word (R22, R102). -/
abbrev Word16 := BitVec 16

/-- An InterfaceBlock field is 32 bits wide (R100). -/
abbrev Word32 := BitVec 32

/-- A UdpDatagram is a byte sequence (R99, R218). -/
abbrev Datagram := List Byte

end Sys2Proof
end

