-- ==== Sys2Proof/Config.lean ====
section
/-! DEFINITION. The parameters of R9 as one record, the spec's defaults, and the constants with no body: the
parameters the spec calls OPEN and the values that the registers without a reset value hold after reset. -/

namespace Sys2Proof

/-- R9: "Parameters the source leaves approximate or open; a model takes each as a configuration field."
`SAMPLE_BITS` is 8 and stands in the type `Byte`. A state carries its configuration; no operation writes it. -/
structure Config where
  /-- `MAX_FRAME_BYTES`, the largest DataFrame, CRC included. -/
  maxFrameBytes : Nat
  /-- `R_CAP`, samples in the Receive payload region. -/
  rCap : Nat
  /-- `W_CAP`, bytes in the Transmit payload region. -/
  wCap : Nat
  /-- `L_CAP`, LevelBits in the LevelSequence buffer. -/
  lCap : Nat
  /-- `T_HALF_RAW`, the duration the reference serialiser emits for one half-bit. -/
  tHalfRaw : Byte
  /-- `T_FULL_RAW`, the duration the reference serialiser emits for two half-bits. -/
  tFullRaw : Byte
  /-- `WAIT_TIMEOUT` in seconds; no step of an untimed model reads it (R202, R288). -/
  waitTimeout : Nat
  /-- `DIAG_DUMP` (R205, R297). -/
  diagDump : Bool
  /-- `IFB_BASE` (R69, R100). -/
  ifbBase : Word32
  /-- `R_BUF_BASE` (R69). -/
  rBufBase : Word32
  /-- `W_BUF_BASE` (R69). -/
  wBufBase : Word32
  /-- `IFB_ENDIAN`, true for big-endian; no rule depends on it (R64). -/
  ifbBigEndian : Bool
  /-- `UDP_SEND_PORT` (R252). -/
  udpSendPort : BitVec 16
  /-- `UDP_RECV_PORT` (R252). -/
  udpRecvPort : BitVec 16
  deriving DecidableEq, Repr

namespace Config

/-! The parameters R9 marks OPEN: a constant without a body each, so nothing rests on their values (log entry 3). -/

/-- `IFB_BASE` of the reset state. -/
opaque openIfbBase : Word32
/-- `R_BUF_BASE` of the reset state. -/
opaque openRBufBase : Word32
/-- `W_BUF_BASE` of the reset state. -/
opaque openWBufBase : Word32
/-- `IFB_ENDIAN` of the reset state. -/
opaque openIfbEndian : Bool
/-- `UDP_SEND_PORT` of the reset state. -/
opaque openSendPort : BitVec 16
/-- `UDP_RECV_PORT` of the reset state. -/
opaque openRecvPort : BitVec 16

/-- R9's defaults. -/
def default : Config where
  maxFrameBytes := 564
  rCap := 12288
  wCap := 564
  lCap := 2 * 12288 + 1
  tHalfRaw := 83
  tFullRaw := 166
  waitTimeout := 5
  diagDump := false
  ifbBase := openIfbBase
  rBufBase := openRBufBase
  wBufBase := openWBufBase
  ifbBigEndian := openIfbEndian
  udpSendPort := openSendPort
  udpRecvPort := openRecvPort

/-- What U2 says a model must assert of the capacities, that a region's capacity fits its 32-bit field (R100), and that
the word count of the largest frame fits 16 bits (R250). -/
def valid (c : Config) : Bool :=
  decide (2 ≤ c.maxFrameBytes) && decide (2 ≤ c.wCap) && decide (2 * c.rCap + 1 ≤ c.lCap) &&
    decide (c.rCap < 2 ^ 32) && decide (c.wCap < 2 ^ 32) && decide ((c.maxFrameBytes - 2) / 2 < 2 ^ 16)

/-- R69: "the three ranges must not overlap". No operation computes an address, so no step depends on it.
DESIGN CHOICE: the ends of the ranges are natural numbers, so a range past 2^32 does not wrap (log entry 27). -/
def regionsDisjoint (c : Config) : Bool :=
  let apart (b1 n1 b2 n2 : Nat) : Bool := decide (b1 + n1 ≤ b2) || decide (b2 + n2 ≤ b1)
  apart c.ifbBase.toNat 40 c.rBufBase.toNat c.rCap && apart c.ifbBase.toNat 40 c.wBufBase.toNat c.wCap &&
    apart c.rBufBase.toNat c.rCap c.wBufBase.toNat c.wCap

/-! The registers R37 lists as "unspecified" hold one value after reset about which nothing is known: a constant
without a body each. R38 forbids a default such as zero; every rule writes them before it reads them (log entry 4). -/

/-- `crc_reg` after reset. -/
opaque resetCrcReg : Word16
/-- `crc_data` after reset. -/
opaque resetCrcData : Word16
/-- `crc_cnt` after reset. -/
opaque resetCrcCnt : BitVec 4
/-- `level` after reset. -/
opaque resetLevel : Bool
/-- `k` after reset. -/
opaque resetK : Nat
/-- `width_ns` after reset. -/
opaque resetWidthNs : BitVec 9
/-- `l_len` after reset. -/
opaque resetLLen : Nat
/-- `i` after reset. -/
opaque resetI : Nat
/-- `acc` after reset. -/
opaque resetAcc : Byte
/-- `nbits` after reset. -/
opaque resetNbits : Nat
/-- `out_len` after reset. -/
opaque resetOutLen : Nat
/-- `pair_faults` after reset. -/
opaque resetPairFaults : Nat
/-- `comp` after reset. -/
opaque resetComp : Bool
/-- `enc_len` after reset. -/
opaque resetEncLen : Nat
/-- `enc_crc` after reset. -/
opaque resetEncCrc : Word16

end Config
end Sys2Proof
end

