-- ==== Sys2Proof/Syntax.lean ====
section
/-! DEFINITION. The operations of the block and of its two environment agents, one constructor per row of
spec/opcode_table.json (R13, R105). Operands are those the operation's own rule names. -/

namespace Sys2Proof

/-- An operation (R13): what an instruction is to an instruction set. A data-selected sample operation carries the
sample that selects it (format DUR8, R92); the operands the environment chooses stand in DEV and NET (R215, R216, R218). -/
inductive Instr where
  /-- CRC.INIT (R120). -/
  | crcInit
  /-- CRC.LOAD `B` (R121). -/
  | crcLoad (b : Byte)
  /-- CRC.BIT (R122). -/
  | crcBit
  /-- CRC.BYTE `B` (R123). -/
  | crcByte (b : Byte)
  /-- CRC16 `b[0..n-1]` (R124). -/
  | crc16 (bs : List Byte)
  /-- DEC.START (R141). -/
  | decStart
  /-- DEC.SHORT, `raw` in 0..59 (R143). -/
  | decShort (raw : Byte)
  /-- DEC.SINGLE, `raw` in 60..114 (R144). -/
  | decSingle (raw : Byte)
  /-- DEC.AMBIG, `raw` in 115..139 (R145). -/
  | decAmbig (raw : Byte)
  /-- DEC.DOUBLE, `raw` in 140..199 (R146). -/
  | decDouble (raw : Byte)
  /-- DEC.LONG, `raw` in 200..255 (R147). -/
  | decLong (raw : Byte)
  /-- DEC.PARITY (R149). -/
  | decParity
  /-- DEC.PAIR1, pattern `10` (R150). -/
  | decPair1
  /-- DEC.PAIR0, pattern `01` (R151). -/
  | decPair0
  /-- DEC.PAIRF, pattern `00` (R152, first row of two). -/
  | decPairf00
  /-- DEC.PAIRF, pattern `11` (R152, second row of two). -/
  | decPairf11
  /-- DEC.BYTE (R153). -/
  | decByte
  /-- DEC.OVF (R154). -/
  | decOvf
  /-- DEC.ALIGN (R156). -/
  | decAlign
  /-- DEC.RUNT (R157). -/
  | decRunt
  /-- DEC.CHECK (R158). -/
  | decCheck
  /-- DEC.DONE (R159). -/
  | decDone
  /-- DEC, the composite over `rx_copy[0..rx_len-1]` (R140, R160). -/
  | dec
  /-- ENC.CHECK `q` (R181). -/
  | encCheck (q : Nat)
  /-- ENC.CRC `p` (R182). -/
  | encCrc (p : List Byte)
  /-- ENC.FILL `p` (R183). -/
  | encFill (p : List Byte)
  /-- ENC `p`, the composite (R180, R184). -/
  | enc (p : List Byte)
  /-- SER.LEVELS `w`, the Device's reference serialiser (R185). -/
  | serLevels (w : List Byte)
  /-- SER.DUR `H`, the reference pulse-to-duration converter (R186). -/
  | serDur (h : List Bool)
  /-- ARB.BOOT (R223). -/
  | arbBoot
  /-- ARB.ARM (R224). -/
  | arbArm
  /-- ARB.WAIT (R201). -/
  | arbWait
  /-- ARB.TICK (R202). -/
  | arbTick
  /-- ARB.ACK (R203). -/
  | arbAck
  /-- ARB.RXTEST (R204). -/
  | arbRxtest
  /-- ARB.RXSTATUS (R205). -/
  | arbRxstatus
  /-- ARB.RXTRUNC (R206). -/
  | arbRxtrunc
  /-- ARB.RXCOPY (R207). -/
  | arbRxcopy
  /-- ARB.RXRELEASE (R208). -/
  | arbRxrelease
  /-- ARB.RXDECODE (R209). -/
  | arbRxdecode
  /-- ARB.TXDONE (R210). -/
  | arbTxdone
  /-- ARB.TXTEST (R211). -/
  | arbTxtest
  /-- ARB.TXOWNER (R212). -/
  | arbTxowner
  /-- ARB.TXFILL (R213). -/
  | arbTxfill
  /-- ARB.TXRELEASE (R214). -/
  | arbTxrelease
  /-- DEV.RXDONE with samples `d` (their number is `m`), status word `st`, truncation bit `t` (R215). -/
  | devRxdone (d : List Byte) (st : Word16) (t : Bool)
  /-- DEV.TXDONE with status word `st` (R216). -/
  | devTxdone (st : Word16)
  /-- DEV.SIGNAL (R217). -/
  | devSignal
  /-- NET.ARRIVE of datagram `g`; `lost` says that the network dropped it instead (R218). -/
  | netArrive (g : Datagram) (lost : Bool)
  /-- RLY.IN `f` (R250). -/
  | rlyIn (f : List Byte)
  /-- RLY.OUT `g` (R251). -/
  | rlyOut (g : Datagram)
  deriving DecidableEq, Repr

/-- Why the bytes of a trace are no operation: the names under which Decode rejects them. -/
inductive DecodeError where
  /-- The trace ends inside an operation. -/
  | truncated
  /-- No operation has this pair of head bytes: among them the phase code 15 (`H_HALT` enables none, R223),
  the unnamed codes of `dphase` and `cphase` (U16) and the pair patterns above 3. -/
  | noOperation (b0 b1 : Byte)
  /-- A byte that stands for one bit is neither 0 nor 1. -/
  | badFlag (b : Byte)
  /-- RLY.IN with fewer than the two bytes every wire frame has (R250). -/
  | shortFrame (n : Nat)
  deriving DecidableEq, Repr

end Sys2Proof
end

