-- ==== Sys2Proof/Machine/State.lean ====
section
/-! DEFINITION. The state of AEI-PL and of the two environment agents as far as the block can see them (10_state.md),
the event taxonomy (R270), the reasons a step can stop, and the reset state (R37). -/

namespace Sys2Proof.Machine

/-- A party of the handshake (R101). -/
inductive Owner where
  | host
  | device
  deriving DecidableEq, Repr, Inhabited

/-- A SharedBuffer (R200). -/
inductive Buffer where
  | receive
  | transmit
  deriving DecidableEq, Repr, Inhabited

/-- The element-addressed spaces of R60. -/
inductive Space where
  /-- `SHM.RBUF` -/
  | rbuf
  /-- `SHM.WBUF` -/
  | wbuf
  /-- `HOST.RXCOPY` -/
  | rxCopy
  /-- `HOST.LEVELS` -/
  | levels
  /-- `HOST.OUT` -/
  | out
  deriving DecidableEq, Repr, Inhabited

/-- `hphase`, the phase of the Host loop (R26). -/
inductive HPhase where
  | boot | wait | ack | rxTest | rxStatus | rxTrunc | rxCopy | rxRelease | rxDecode
  | txDone | txTest | txOwner | txFill | txRelease | arm | halt
  deriving DecidableEq, Repr, Inhabited

/-- `dphase`, the phase of the timing decoder (R26). -/
inductive DPhase where
  | idle | classify | parity | pair | align | check | done
  deriving DecidableEq, Repr, Inhabited

/-- `cphase`, the phase of the CRC unit (R26). -/
inductive CPhase where
  | idle | load | bit
  deriving DecidableEq, Repr, Inhabited

/-- The errors DEC can raise, with the information R270 records. -/
inductive DecError where
  | widthTooShort (k : Nat) (raw : Byte)
  | widthAmbiguous (k : Nat) (raw : Byte)
  | widthTooLong (k : Nat) (raw : Byte)
  | misaligned (i : Nat)
  | crcMismatch (computed transmitted : Word16)
  | frameTooShort (outLen : Nat)
  | overflow (outLen : Nat)
  deriving DecidableEq, Repr, Inhabited

/-- The refusals of ENC (R281, R282). -/
inductive EncError where
  | oddLength (q : Nat)
  | tooLong (q : Nat)
  deriving DecidableEq, Repr, Inhabited

/-- The refusals of RLY (R283, R284). -/
inductive RlyError where
  | malformed (m : Nat)
  | oddFrame (n : Nat)
  deriving DecidableEq, Repr, Inhabited

/-- An entry of the log (R33): every error and event of R270 with the information recorded. -/
inductive Event where
  /-- A FramingError or the OverflowError, `0x01` to `0x06` and `0x10`. -/
  | decode (e : DecError)
  /-- DeviceStatusError.Rx, `0x20`. -/
  | rxStatus (st : Word16)
  /-- DeviceStatusError.Tx, `0x21`. -/
  | txStatus (st : Word16)
  /-- RxLengthError, `0x22`. -/
  | rxLength (n : Word32)
  /-- OwnershipViolation, `0x30`, with the datagram's length. -/
  | ownership (n : Nat)
  /-- EncodeOddLength or EncodeTooLong, `0x40`, `0x41`. -/
  | encode (e : EncError)
  /-- RelayMalformed or RelayOddFrame, `0x50`, `0x51`. -/
  | relay (e : RlyError)
  /-- FatalStartup, `0xF0`. -/
  | fatalStartup
  /-- PairFault, `0x80`, with the pair index and the level. -/
  | pairFault (i : Nat) (a : Bool)
  /-- RxTruncated, `0x81`. -/
  | rxTruncated (n : Word32)
  /-- Tick, `0x82`. -/
  | tick
  /-- HeaderMismatch, `0x83`, with the header's count and the payload bytes present. -/
  | headerMismatch (wc : Word16) (n : Nat)
  /-- DiagDump, `0x84`, with the raw Receive payload. -/
  | diagDump (payload : List Byte)
  deriving DecidableEq, Repr, Inhabited

/-- `dec_result` (R23, R140). -/
inductive DecResult where
  /-- A wire frame with its CRC, the pair faults tolerated, and whether the synthetic LevelBit was appended. -/
  | frame (bytes : List Byte) (faults : Nat) (comp : Bool)
  | error (e : DecError)
  deriving DecidableEq, Repr, Inhabited

/-- What an operation that is a function returned to its caller: the `-> <result>` of a trace line (R108).
The model's own: where an arbiter operation calls the same function, the result passes inside that one step. -/
inductive OpResult where
  | none
  /-- ENC or ENC.CHECK admitted the payload. -/
  | encOk
  /-- ENC or ENC.CHECK raised. -/
  | encError (e : EncError)
  /-- RLY.OUT returned `Payload(p)`. -/
  | payload (p : List Byte)
  /-- RLY.IN broadcast the frame's datagram. -/
  | relayed
  /-- RLY.IN raised, or RLY.OUT returned `Error`. -/
  | rlyError (e : RlyError)
  /-- SER.LEVELS returned the half-bit levels. -/
  | levels (h : List Bool)
  /-- SER.DUR returned a DurationSequence. -/
  | durations (d : List Byte)
  deriving DecidableEq, Repr, Inhabited

/-- How far Host has taken the arbiter operation of its present phase by that operation's own parts (R14: a composite
"may be taken as one step or as its primitives"). The model's own: the spec says the order of the parts in words
("after ENC.CHECK", "first step of ENC", "called by ARB.RXDECODE on Frame"; log entry 26). -/
inductive Progress where
  /-- No part taken. -/
  | fresh
  /-- In `H_RXDECODE`: DEC was started; it has returned when `dphase` is `D_IDLE` again. -/
  | decoding
  /-- In `H_RXDECODE`: RLY.IN has run on the frame. -/
  | relayed
  /-- In `H_TXFILL`: RLY.OUT returned the payload of `tx_dgram`. -/
  | unframed
  /-- In `H_TXFILL`: ENC.CHECK admitted the payload. -/
  | admitted
  /-- In `H_TXFILL`: ENC.CRC computed the payload's checksum. -/
  | summed
  /-- In `H_TXFILL`: the last part ran: ENC.FILL, or the one that raised. -/
  | ended
  deriving DecidableEq, Repr, Inhabited

/-- A payload space: the written elements by index, in the one canonical form `Memory.wf`. An index not listed
holds no value (R38, R314). `Memory Byte` is a list of `Host.Cell`. -/
abbrev Memory (α : Type) := List (Nat × α)

/-- The CRC unit (R22, R26). -/
structure CrcUnit where
  /-- `crc_reg` -/
  reg : Word16
  /-- `crc_data` -/
  data : Word16
  /-- `crc_cnt` -/
  cnt : BitVec 4
  /-- `cphase` -/
  phase : CPhase
  deriving DecidableEq, Repr

/-- The timing decoder (R23, R24, R26). -/
structure Decoder where
  /-- `dphase` -/
  phase : DPhase
  /-- `level` -/
  level : Bool
  /-- `k` -/
  k : Nat
  /-- `width_ns` -/
  widthNs : BitVec 9
  /-- `l_len` -/
  lLen : Nat
  /-- `i` -/
  i : Nat
  /-- `acc` -/
  acc : Byte
  /-- `nbits`, 0 to 8 -/
  nbits : Nat
  /-- `out_len` -/
  outLen : Nat
  /-- `pair_faults` -/
  pairFaults : Nat
  /-- `comp` -/
  comp : Bool
  /-- `dec_result` -/
  result : DecResult
  /-- `L[*]`, space `HOST.LEVELS` -/
  levels : Memory Bool
  /-- `out[*]`, space `HOST.OUT` -/
  out : Memory Byte
  deriving DecidableEq, Repr

/-- The encoder's registers (R25). -/
structure Encoder where
  /-- `enc_len` -/
  len : Nat
  /-- `enc_crc` -/
  crc : Word16
  deriving DecidableEq, Repr

/-- The ten InterfaceBlock fields (R28, R29, R100); a record of typed fields, as R64 asks. -/
structure Ifb where
  /-- `r_owner` -/
  rOwner : Owner
  /-- `r_max_length` -/
  rMaxLength : Word32
  /-- `r_received_length` -/
  rReceivedLength : Word32
  /-- the address field `r_buf` -/
  rBufAddr : Word32
  /-- `r_truncated` -/
  rTruncated : Bool
  /-- `r_status`, its 16 significant bits -/
  rStatus : Word16
  /-- `w_owner` -/
  wOwner : Owner
  /-- `w_length` -/
  wLength : Word32
  /-- the address field `w_buf` -/
  wBufAddr : Word32
  /-- `w_status`, its 16 significant bits -/
  wStatus : Word16
  deriving DecidableEq, Repr

/-- Everything the spec gives the machine, and the model's own fields `cfg`, `progress`, `result` and `feed`. -/
structure State where
  /-- The parameters of R9; no operation writes them. -/
  cfg : Config
  /-- The environment input `boot_ok` (R39, R223). -/
  bootOk : Bool
  /-- `hphase` -/
  hphase : HPhase
  /-- CRC unit -/
  crc : CrcUnit
  /-- Timing decoder -/
  dec : Decoder
  /-- Encoder -/
  enc : Encoder
  /-- `SHM.IFB` -/
  ifb : Ifb
  /-- The Receive payload `r_buf[*]`, space `SHM.RBUF` -/
  rbuf : Memory Byte
  /-- The Transmit payload `w_buf[*]`, space `SHM.WBUF` -/
  wbuf : Memory Byte
  /-- `rx_copy[*]`, space `HOST.RXCOPY` -/
  rxCopy : Memory Byte
  /-- `rx_len` -/
  rxLen : Nat
  /-- `irq_pending` (R30) -/
  irqPending : Bool
  /-- `kick_pending` (R30) -/
  kickPending : Bool
  /-- `dev_sig_owed` (R34) -/
  devSigOwed : Bool
  /-- `rx_valid` (R31) -/
  rxValid : Bool
  /-- `tx_outstanding` (R31) -/
  txOutstanding : Bool
  /-- `sock_registered` (R31) -/
  sockRegistered : Bool
  /-- `woke_irq` (R31) -/
  wokeIrq : Bool
  /-- `woke_sock` (R31) -/
  wokeSock : Bool
  /-- `tx_dgram` (R31) -/
  txDgram : Datagram
  /-- `net_in`, oldest first (R32) -/
  netIn : List Datagram
  /-- `net_out`, oldest first (R32) -/
  netOut : List Datagram
  /-- `log`, oldest first (R33) -/
  log : List Event
  /-- How far the operation of the phase was taken by its parts (the model's own). -/
  progress : Progress
  /-- What the last function operation returned (the model's own). -/
  result : OpResult
  /-- The bytes of the trace still to be taken: which agent moves next and what the environment chose, which R20
  makes parameters of the step relation (the model's own). Empty: the Host sequencer runs by itself. -/
  feed : List Byte
  deriving DecidableEq, Repr

/-- The machine stops. Every fault is safe: the model stops where the spec gives no behaviour. -/
inductive Fault where
  /-- `H_HALT` with no operation offered: "no enabled operation; only reset leaves it" (R223, R292, U15). Raised by step. -/
  | halted
  /-- A read of a payload element that holds no value (R38, U13). Raised by the payload reads; no run from reset does it. -/
  | unwritten (sp : Space) (i : Nat)
  /-- A payload access at an index outside the region (R60, R69). Raised by the payload reads and writes. -/
  | outsideRegion (sp : Space) (i : Nat)
  /-- ARB.TXTEST with `woke_sock = 1` and an empty `net_in`: the head of an empty queue is nothing (R211 says it cannot be). -/
  | emptyQueue
  deriving DecidableEq, Repr

/-- The offered operation is not taken. Every refusal is safe: there is no such step in the spec. -/
inductive Refusal where
  /-- An operation that has no meaning yet. Raised by exec's arms only. -/
  | notModelled (mnemonic : String)
  /-- The operation's phase or guard is false: "the agent does not take that step" (43_arbiter.md). Raised by every
  meaning that has a phase or a guard. -/
  | notEnabled (mnemonic : String)
  /-- Host would touch a buffer it does not own (R70, R71, U1: "refuse"). Raised by the Host operations on a buffer. -/
  | breaksOwnership (b : Buffer)
  /-- Device would store more samples than `r_max_length` (R215, D32). Raised by DEV.RXDONE. -/
  | breaksDeviceBound (m : Nat)
  /-- The trace bytes are no operation. Raised by step. -/
  | undecodable (e : DecodeError)
  deriving DecidableEq, Repr

end Sys2Proof.Machine

namespace Sys2Proof.Config

/-- `dec_result` after reset: unspecified (R37), a constant without a body (log entry 4). -/
opaque resetDecResult : Sys2Proof.Machine.DecResult

end Sys2Proof.Config

namespace Sys2Proof.Machine

/-- The state while `rst` is asserted (R310): every field at its value of R37, for a configuration and the inputs
`boot_ok` and trace. The two owners are the source's, the zeros are D27's; the registers without a reset value hold
what `Config` names, the payload spaces hold nothing. -/
def State.resetFor (cfg : Config) (bootOk : Bool) (feed : List Byte) : State where
  cfg := cfg
  bootOk := bootOk
  hphase := .boot
  crc := { reg := Config.resetCrcReg, data := Config.resetCrcData, cnt := Config.resetCrcCnt, phase := .idle }
  dec := { phase := .idle, level := Config.resetLevel, k := Config.resetK, widthNs := Config.resetWidthNs
           lLen := Config.resetLLen, i := Config.resetI, acc := Config.resetAcc, nbits := Config.resetNbits
           outLen := Config.resetOutLen, pairFaults := Config.resetPairFaults, comp := Config.resetComp
           result := Config.resetDecResult, levels := [], out := [] }
  enc := { len := Config.resetEncLen, crc := Config.resetEncCrc }
  ifb := { rOwner := .device, rMaxLength := BitVec.ofNat 32 cfg.rCap, rReceivedLength := 0
           rBufAddr := cfg.rBufBase, rTruncated := false, rStatus := 0
           wOwner := .host, wLength := 0, wBufAddr := cfg.wBufBase, wStatus := 0 }
  rbuf := []
  wbuf := []
  rxCopy := []
  rxLen := 0
  irqPending := false
  kickPending := false
  devSigOwed := false
  rxValid := false
  txOutstanding := false
  sockRegistered := false
  wokeIrq := false
  wokeSock := false
  txDgram := []
  netIn := []
  netOut := []
  log := []
  progress := .fresh
  result := .none
  feed := feed

/-- The machine right after reset (R37, R311, R312) with the default parameters; `boot_ok` is 1 and nothing is offered
(95_test_vectors.md part 3: "the reset state of rule R37 with `boot_ok = 1`, and all parameters have their defaults"). -/
def State.reset : State := State.resetFor Config.default true []

end Sys2Proof.Machine
end

