-- ==== Sys2Proof/Machine/Operands.lean ====
section
/-! DEFINITION. The data formats that select operations and carry their operands (30_encoding.md): byte order, duration
samples, LevelBit pairs, byte assembly, the CRC data word, the status word, numeric codes, the InterfaceBlock's layout. -/

namespace Sys2Proof.Machine

/-- `hi(w) = w[15:8]` (R10). -/
def hi (w : Word16) : Byte := w.extractLsb' 8 8

/-- `lo(w) = w[7:0]` (R10). -/
def lo (w : Word16) : Byte := w.extractLsb' 0 8

/-- The 16-bit word of two bytes, high byte first (R11, R62). -/
def beWord (h l : Byte) : Word16 := (h.setWidth 16 <<< 8) ||| l.setWidth 16

/-! ## Duration samples (format DUR8) -/

/-- `width_ns = 2 * zext_9(raw)` (R91, R142). -/
def widthNs (raw : Byte) : BitVec 9 := 2 * raw.setWidth 9

/-- The five rows of the classification table (R92). -/
inductive SampleClass where
  | short | single | ambig | double | long
  deriving DecidableEq, Repr

/-- The classification of a scaled width by the thresholds 120, 230, 280 and 400 ns (R92, R8). -/
def classifyWidth (w : BitVec 9) : SampleClass :=
  if w < 120 then .short
  else if w < 230 then .single
  else if w < 280 then .ambig
  else if w < 400 then .double
  else .long

/-- The class of a raw sample (R92). -/
def classify (raw : Byte) : SampleClass := classifyWidth (widthNs raw)

/-- The operation a sample selects (R92). -/
def sampleOp (raw : Byte) : Instr :=
  match classify raw with
  | .short => .decShort raw
  | .single => .decSingle raw
  | .ambig => .decAmbig raw
  | .double => .decDouble raw
  | .long => .decLong raw

/-! ## Levels, pairs and bytes -/

/-- The operation the pattern `ab` of two LevelBits selects (format PAIR2, R94). -/
def pairOp (a b : Bool) : Instr :=
  match a, b with
  | true, false => .decPair1
  | false, true => .decPair0
  | false, false => .decPairf00
  | true, true => .decPairf11

/-- `acc <- ((acc << 1) | bit) & 0xFF` (R95). -/
def shiftIn (acc : Byte) (bit : Bool) : Byte := (acc <<< 1) ||| (if bit then 1 else 0)

/-- The bits of a byte, most significant first (R63). -/
def bitsMsbFirst (b : Byte) : List Bool :=
  [b.getLsbD 7, b.getLsbD 6, b.getLsbD 5, b.getLsbD 4, b.getLsbD 3, b.getLsbD 2, b.getLsbD 1, b.getLsbD 0]

/-- `next_pair_phase()` (R155). -/
def nextPairPhase (d : Decoder) : DPhase :=
  if d.nbits = 8 then .pair
  else if d.i + 1 < d.lLen then .pair
  else .align

/-! ## CRC data word and datagram header -/

/-- `crc_data = B << 8` (R98). -/
def crcDataWord (b : Byte) : Word16 := b.setWidth 16 <<< 8

/-- The datagram of a payload: big-endian word count, then the payload (R99). -/
def datagramOf (wc : Word16) (p : List Byte) : Datagram := hi wc :: lo wc :: p

/-! ## Status word (format STATUS, R102) -/

/-- `ST_NONE`. -/
def stNone : Word16 := 0x0000
/-- `InputComplete` with no flag: the one good receive status. -/
def inputComplete : Word16 := 0x0001
/-- `OutputComplete` with no flag: the one good transmit status. -/
def outputComplete : Word16 := 0x0002
/-- `InputOverrun`. -/
def inputOverrun : Word16 := 0x0003
/-- `SoftwareReset`. -/
def softwareReset : Word16 := 0x0004
/-- The code field, bits 7:0. -/
def statusCode (st : Word16) : Byte := st.extractLsb' 0 8
/-- The flag `BitCollision`, bit 8. -/
def bitCollision (st : Word16) : Bool := st.getLsbD 8
/-- The flag `Incomplete`, bit 9. -/
def incomplete (st : Word16) : Bool := st.getLsbD 9

/-! ## Numeric codes; no rule depends on them (R101, R103, R104) -/

/-- Owner code (R101). -/
def Owner.code : Owner → BitVec 1
  | .host => 0
  | .device => 1

/-- `hphase` codes (R104). -/
def HPhase.code : HPhase → BitVec 4
  | .boot => 0 | .wait => 1 | .ack => 2 | .rxTest => 3 | .rxStatus => 4 | .rxTrunc => 5 | .rxCopy => 6
  | .rxRelease => 7 | .rxDecode => 8 | .txDone => 9 | .txTest => 10 | .txOwner => 11 | .txFill => 12
  | .txRelease => 13 | .arm => 14 | .halt => 15

/-- `dphase` codes (R104). -/
def DPhase.code : DPhase → BitVec 4
  | .idle => 0 | .classify => 1 | .parity => 2 | .pair => 3 | .align => 4 | .check => 5 | .done => 6

/-- `cphase` codes (R104). -/
def CPhase.code : CPhase → BitVec 4
  | .idle => 0 | .load => 1 | .bit => 2

/-- The code of a decode error (R270). -/
def DecError.code : DecError → Byte
  | .widthTooShort _ _ => 0x01
  | .widthAmbiguous _ _ => 0x02
  | .widthTooLong _ _ => 0x03
  | .misaligned _ => 0x04
  | .crcMismatch _ _ => 0x05
  | .frameTooShort _ => 0x06
  | .overflow _ => 0x10

/-- The code of an event (R270). -/
def Event.code : Event → Byte
  | .decode e => e.code
  | .rxStatus _ => 0x20
  | .txStatus _ => 0x21
  | .rxLength _ => 0x22
  | .ownership _ => 0x30
  | .encode (.oddLength _) => 0x40
  | .encode (.tooLong _) => 0x41
  | .relay (.malformed _) => 0x50
  | .relay (.oddFrame _) => 0x51
  | .fatalStartup => 0xF0
  | .pairFault _ _ => 0x80
  | .rxTruncated _ => 0x81
  | .tick => 0x82
  | .headerMismatch _ _ => 0x83
  | .diagDump _ => 0x84

/-- The information recorded with a decode error (R270). -/
def DecError.info : DecError → List Nat
  | .widthTooShort k raw | .widthAmbiguous k raw | .widthTooLong k raw => [k, raw.toNat]
  | .misaligned i => [i]
  | .crcMismatch c t => [c.toNat, t.toNat]
  | .frameTooShort n | .overflow n => [n]

/-- The information recorded with an event (R270). -/
def Event.info : Event → List Nat
  | .decode e => e.info
  | .rxStatus st | .txStatus st => [st.toNat]
  | .rxLength n | .rxTruncated n => [n.toNat]
  | .ownership n | .encode (.oddLength n) | .encode (.tooLong n) => [n]
  | .relay (.malformed n) | .relay (.oddFrame n) => [n]
  | .fatalStartup | .tick => [0]
  | .pairFault i a => [i, a.toNat]
  | .headerMismatch wc n => [wc.toNat, n]
  | .diagDump p => p.map BitVec.toNat

/-- "Codes `0x80` to `0x84` are events, not errors: they end nothing" (R270). -/
def Event.informational : Event → Bool
  | .pairFault _ _ | .rxTruncated _ | .tick | .headerMismatch _ _ | .diagDump _ => true
  | _ => false

/-! ## InterfaceBlock layout (R69, R100) -/

/-- The ten fields, in the order the source lists them. -/
inductive IfbField where
  | rOwner | rMaxLength | rReceivedLength | rBuf | rTruncated | rStatus | wOwner | wLength | wBuf | wStatus
  deriving DecidableEq, Repr

/-- The field's index (R100). -/
def IfbField.index : IfbField → Nat
  | .rOwner => 0 | .rMaxLength => 1 | .rReceivedLength => 2 | .rBuf => 3 | .rTruncated => 4
  | .rStatus => 5 | .wOwner => 6 | .wLength => 7 | .wBuf => 8 | .wStatus => 9

/-- `IFB_BASE + 4 * index` (R69). DESIGN CHOICE: a sum at or past 2^32, on which the spec is silent, wraps to 32 bits (log
entry 27). -/
def IfbField.address (cfg : Config) (f : IfbField) : Word32 := cfg.ifbBase + BitVec.ofNat 32 (4 * f.index)

/-- The field as the 32-bit word `shm` carries; bits above the significant ones read as 0 (R100). -/
def Ifb.word (b : Ifb) : IfbField → Word32
  | .rOwner => b.rOwner.code.setWidth 32
  | .rMaxLength => b.rMaxLength
  | .rReceivedLength => b.rReceivedLength
  | .rBuf => b.rBufAddr
  | .rTruncated => if b.rTruncated then 1 else 0
  | .rStatus => b.rStatus.setWidth 32
  | .wOwner => b.wOwner.code.setWidth 32
  | .wLength => b.wLength
  | .wBuf => b.wBufAddr
  | .wStatus => b.wStatus.setWidth 32

/-- What a 32-bit write to the field leaves in the record; "bits above the significant ones ... are written as 0" (R100). -/
def Ifb.setWord (b : Ifb) (f : IfbField) (v : Word32) : Ifb :=
  match f with
  | .rOwner => { b with rOwner := if v.getLsbD 0 then .device else .host }
  | .rMaxLength => { b with rMaxLength := v }
  | .rReceivedLength => { b with rReceivedLength := v }
  | .rBuf => { b with rBufAddr := v }
  | .rTruncated => { b with rTruncated := v.getLsbD 0 }
  | .rStatus => { b with rStatus := v.setWidth 16 }
  | .wOwner => { b with wOwner := if v.getLsbD 0 then .device else .host }
  | .wLength => { b with wLength := v }
  | .wBuf => { b with wBufAddr := v }
  | .wStatus => { b with wStatus := v.setWidth 16 }

end Sys2Proof.Machine
end

