-- ==== Sys2Proof/WellFormed.lean ====
section
/-! DEFINITION. Which operations are well formed: a sample operation carries a sample of its own row of R92, a sequence
operand has a length a 32-bit count can hold, and RLY.IN's wire frame has its two CRC bytes (R250). -/

namespace Sys2Proof

open Sys2Proof.Machine

/-- A count that fits the trace's 32-bit length, the width of the InterfaceBlock's counts (R100; log entry 1). -/
def countFits (n : Nat) : Bool := decide (n < 2 ^ 32)

/-- The check of an operation's operands. -/
def Instr.wf : Instr → Bool
  | .decShort raw => classify raw == .short
  | .decSingle raw => classify raw == .single
  | .decAmbig raw => classify raw == .ambig
  | .decDouble raw => classify raw == .double
  | .decLong raw => classify raw == .long
  | .crc16 bs => countFits bs.length
  | .encCheck q => countFits q
  | .encCrc p => countFits p.length
  | .encFill p => countFits p.length
  | .enc p => countFits p.length
  | .serLevels w => countFits w.length
  | .serDur h => countFits h.length
  | .devRxdone d _ _ => countFits d.length
  | .netArrive g _ => countFits g.length
  | .rlyIn f => countFits f.length && decide (2 ≤ f.length)
  | .rlyOut g => countFits g.length
  | .crcInit | .crcLoad _ | .crcBit | .crcByte _ => true
  | .decStart | .decParity | .decPair1 | .decPair0 | .decPairf00 | .decPairf11 => true
  | .decByte | .decOvf | .decAlign | .decRunt | .decCheck | .decDone | .dec => true
  | .arbBoot | .arbArm | .arbWait | .arbTick | .arbAck | .arbRxtest | .arbRxstatus | .arbRxtrunc => true
  | .arbRxcopy | .arbRxrelease | .arbRxdecode | .arbTxdone | .arbTxtest | .arbTxowner | .arbTxfill => true
  | .arbTxrelease | .devTxdone _ | .devSignal => true

end Sys2Proof
end

