-- ==== Sys2Proof/Decode.lean ====
section
/-! DEFINITION. The binary trace. The block has no instruction words (R90); R104 gives phase codes "so that a trace can be
written in binary", and R92 and R94 give the data that select the other operations. A trace operation is two head bytes
and its operands. The low nibble of the first head byte is the opcode table's code; its high nibble says which phase
register the code belongs to (0 `hphase`, 1 `dphase`, 2 `cphase`), or 3 for a pair pattern, 4 for a sample (the second
byte), 5 for SER, 6 for DEV, 7 for NET. The second byte tells apart the operations that one phase enables. Multi-byte
operands are big-endian, a sequence has a 32-bit count before it (log entry 1). -/

namespace Sys2Proof

open Sys2Proof.Machine

/-! ## Operands -/

/-- A 32-bit count, high byte first. -/
def takeCount : List Byte → Except DecodeError (Nat × List Byte)
  | a :: b :: c :: d :: r => .ok (a.toNat * 2 ^ 24 + b.toNat * 2 ^ 16 + c.toNat * 2 ^ 8 + d.toNat, r)
  | _ => .error .truncated

/-- `n` bytes. -/
def takeBytes : Nat → List Byte → Except DecodeError (List Byte × List Byte)
  | 0, r => .ok ([], r)
  | _ + 1, [] => .error .truncated
  | n + 1, b :: r =>
    match takeBytes n r with
    | .ok (bs, r') => .ok (b :: bs, r')
    | .error e => .error e

/-- One bit, in a byte of its own. -/
def takeFlag : List Byte → Except DecodeError (Bool × List Byte)
  | [] => .error .truncated
  | b :: r => if b = 0 then .ok (false, r) else if b = 1 then .ok (true, r) else .error (.badFlag b)

/-- `n` bits, each in a byte of its own. -/
def takeFlags : Nat → List Byte → Except DecodeError (List Bool × List Byte)
  | 0, r => .ok ([], r)
  | n + 1, r =>
    match takeFlag r with
    | .error e => .error e
    | .ok (f, r') =>
      match takeFlags n r' with
      | .ok (fs, r'') => .ok (f :: fs, r'')
      | .error e => .error e

/-- A 16-bit word, high byte first. -/
def takeWord : List Byte → Except DecodeError (Word16 × List Byte)
  | h :: l :: r => .ok (beWord h l, r)
  | _ => .error .truncated

/-- A byte. -/
def takeByte : List Byte → Except DecodeError (Byte × List Byte)
  | b :: r => .ok (b, r)
  | _ => .error .truncated

/-- A counted byte sequence. -/
def takeSeq (r : List Byte) : Except DecodeError (List Byte × List Byte) :=
  match takeCount r with
  | .ok (n, r') => takeBytes n r'
  | .error e => .error e

/-- A counted bit sequence. -/
def takeBits (r : List Byte) : Except DecodeError (List Bool × List Byte) :=
  match takeCount r with
  | .ok (n, r') => takeFlags n r'
  | .error e => .error e

/-- The operand, then the operation built from it. -/
def withOperand {α : Type} (x : Except DecodeError (α × List Byte)) (f : α → Instr) :
    Except DecodeError (Instr × List Byte) :=
  match x with
  | .ok (v, r) => .ok (f v, r)
  | .error e => .error e

/-- RLY.IN's wire frame has at least the two CRC bytes (R250). -/
def takeFrame (r : List Byte) : Except DecodeError (List Byte × List Byte) :=
  match takeSeq r with
  | .ok (f, r') => if 2 ≤ f.length then .ok (f, r') else .error (.shortFrame f.length)
  | .error e => .error e

/-- DEV.RXDONE's operands: the samples, the status word, the truncation bit (R215). -/
def takeReceive (r : List Byte) : Except DecodeError (Instr × List Byte) :=
  match takeSeq r with
  | .error e => .error e
  | .ok (d, r1) =>
    match takeWord r1 with
    | .error e => .error e
    | .ok (st, r2) => withOperand (takeFlag r2) (fun t => .devRxdone d st t)

/-- NET.ARRIVE's operands: the datagram and whether it is lost (R218). -/
def takeArrival (r : List Byte) : Except DecodeError (Instr × List Byte) :=
  match takeSeq r with
  | .error e => .error e
  | .ok (g, r1) => withOperand (takeFlag r1) (fun lost => .netArrive g lost)

/-! ## The decoder -/

/-- The operation of two head bytes that are not a sample's, with its operands from `r`. -/
def decodeHead (b0 b1 : Byte) (r : List Byte) : Except DecodeError (Instr × List Byte) :=
  match b0.toNat * 256 + b1.toNat with
  -- hphase codes (R104)
  | 0x0000 => .ok (.arbBoot, r)
  | 0x0100 => .ok (.arbWait, r)
  | 0x0101 => .ok (.arbTick, r)
  | 0x0200 => .ok (.arbAck, r)
  | 0x0300 => .ok (.arbRxtest, r)
  | 0x0400 => .ok (.arbRxstatus, r)
  | 0x0500 => .ok (.arbRxtrunc, r)
  | 0x0600 => .ok (.arbRxcopy, r)
  | 0x0700 => .ok (.arbRxrelease, r)
  | 0x0800 => .ok (.arbRxdecode, r)
  | 0x0801 => withOperand (takeFrame r) .rlyIn
  | 0x0900 => .ok (.arbTxdone, r)
  | 0x0A00 => .ok (.arbTxtest, r)
  | 0x0B00 => .ok (.arbTxowner, r)
  | 0x0C00 => .ok (.arbTxfill, r)
  | 0x0C01 => withOperand (takeCount r) .encCheck
  | 0x0C02 => withOperand (takeSeq r) .encCrc
  | 0x0C03 => withOperand (takeSeq r) .encFill
  | 0x0C04 => withOperand (takeSeq r) .enc
  | 0x0C05 => withOperand (takeSeq r) .rlyOut
  | 0x0D00 => .ok (.arbTxrelease, r)
  | 0x0E00 => .ok (.arbArm, r)
  -- dphase codes (R104)
  | 0x1000 => .ok (.decStart, r)
  | 0x1001 => .ok (.dec, r)
  | 0x1200 => .ok (.decParity, r)
  | 0x1300 => .ok (.decByte, r)
  | 0x1301 => .ok (.decOvf, r)
  | 0x1400 => .ok (.decAlign, r)
  | 0x1500 => .ok (.decRunt, r)
  | 0x1501 => .ok (.decCheck, r)
  | 0x1600 => .ok (.decDone, r)
  -- cphase codes (R104)
  | 0x2000 => .ok (.crcInit, r)
  | 0x2001 => withOperand (takeSeq r) .crc16
  | 0x2100 => withOperand (takeByte r) .crcLoad
  | 0x2101 => withOperand (takeByte r) .crcByte
  | 0x2200 => .ok (.crcBit, r)
  -- pair patterns (R94)
  | 0x3000 => .ok (pairOp false false, r)
  | 0x3100 => .ok (pairOp false true, r)
  | 0x3200 => .ok (pairOp true false, r)
  | 0x3300 => .ok (pairOp true true, r)
  -- reference serialiser (R185, R186)
  | 0x5000 => withOperand (takeSeq r) .serLevels
  | 0x5001 => withOperand (takeBits r) .serDur
  -- environment agents (R215 to R218)
  | 0x6000 => takeReceive r
  | 0x6001 => withOperand (takeWord r) .devTxdone
  | 0x6002 => .ok (.devSignal, r)
  | 0x7000 => takeArrival r
  | _ => .error (.noOperation b0 b1)

/-- Reads one operation from a trace and returns the rest; total on any bytes. The head byte `0x40` is followed by a
duration sample, whose value alone selects the operation (R92). -/
def decode : List Byte → Except DecodeError (Instr × List Byte)
  | b0 :: b1 :: r => if b0 = 0x40 then .ok (sampleOp b1, r) else decodeHead b0 b1 r
  | _ => .error .truncated

/-! ## The encoder -/

/-- A 32-bit count, high byte first. -/
def putCount (n : Nat) : List Byte :=
  [BitVec.ofNat 8 (n / 2 ^ 24), BitVec.ofNat 8 (n / 2 ^ 16), BitVec.ofNat 8 (n / 2 ^ 8), BitVec.ofNat 8 n]

/-- A counted byte sequence. -/
def putSeq (bs : List Byte) : List Byte := putCount bs.length ++ bs

/-- One bit, in a byte of its own. -/
def putFlag (f : Bool) : Byte := if f then 1 else 0

/-- A counted bit sequence. -/
def putBits (fs : List Bool) : List Byte := putCount fs.length ++ fs.map putFlag

/-- A 16-bit word, high byte first. -/
def putWord (w : Word16) : List Byte := [hi w, lo w]

/-- The bytes of an operation in a trace. -/
def encode : Instr → List Byte
  | .arbBoot => [0x00, 0x00]
  | .arbWait => [0x01, 0x00]
  | .arbTick => [0x01, 0x01]
  | .arbAck => [0x02, 0x00]
  | .arbRxtest => [0x03, 0x00]
  | .arbRxstatus => [0x04, 0x00]
  | .arbRxtrunc => [0x05, 0x00]
  | .arbRxcopy => [0x06, 0x00]
  | .arbRxrelease => [0x07, 0x00]
  | .arbRxdecode => [0x08, 0x00]
  | .rlyIn f => 0x08 :: 0x01 :: putSeq f
  | .arbTxdone => [0x09, 0x00]
  | .arbTxtest => [0x0A, 0x00]
  | .arbTxowner => [0x0B, 0x00]
  | .arbTxfill => [0x0C, 0x00]
  | .encCheck q => 0x0C :: 0x01 :: putCount q
  | .encCrc p => 0x0C :: 0x02 :: putSeq p
  | .encFill p => 0x0C :: 0x03 :: putSeq p
  | .enc p => 0x0C :: 0x04 :: putSeq p
  | .rlyOut g => 0x0C :: 0x05 :: putSeq g
  | .arbTxrelease => [0x0D, 0x00]
  | .arbArm => [0x0E, 0x00]
  | .decStart => [0x10, 0x00]
  | .dec => [0x10, 0x01]
  | .decParity => [0x12, 0x00]
  | .decByte => [0x13, 0x00]
  | .decOvf => [0x13, 0x01]
  | .decAlign => [0x14, 0x00]
  | .decRunt => [0x15, 0x00]
  | .decCheck => [0x15, 0x01]
  | .decDone => [0x16, 0x00]
  | .crcInit => [0x20, 0x00]
  | .crc16 bs => 0x20 :: 0x01 :: putSeq bs
  | .crcLoad b => [0x21, 0x00, b]
  | .crcByte b => [0x21, 0x01, b]
  | .crcBit => [0x22, 0x00]
  | .decPairf00 => [0x30, 0x00]
  | .decPair0 => [0x31, 0x00]
  | .decPair1 => [0x32, 0x00]
  | .decPairf11 => [0x33, 0x00]
  | .decShort raw => [0x40, raw]
  | .decSingle raw => [0x40, raw]
  | .decAmbig raw => [0x40, raw]
  | .decDouble raw => [0x40, raw]
  | .decLong raw => [0x40, raw]
  | .serLevels w => 0x50 :: 0x00 :: putSeq w
  | .serDur h => 0x50 :: 0x01 :: putBits h
  | .devRxdone d st t => 0x60 :: 0x00 :: (putSeq d ++ putWord st ++ [putFlag t])
  | .devTxdone st => 0x60 :: 0x01 :: putWord st
  | .devSignal => [0x60, 0x02]
  | .netArrive g lost => 0x70 :: 0x00 :: (putSeq g ++ [putFlag lost])

/-! ## The opcode table's numbering -/

/-- The bytes of a table word of `nbits` bits, bit 0 the lowest bit of the first byte, then zeros for every bit above:
the longest operation whose sequences are empty has nine bytes. -/
def tableBytes (nbits w : Nat) : List Byte :=
  (List.range ((nbits + 7) / 8)).map (fun j => BitVec.ofNat 8 (w / 256 ^ j)) ++ List.replicate 16 0

/-- The operation the decoder reads from a table word. The table numbers a sequenced operation by its phase code only and
does not say of which phase register, so one number stands in several rows; a bare code is read as one of `hphase`,
the Host sequencer's own register (log entry 2). -/
def decodeTableWord (nbits w : Nat) : Option Instr :=
  match decode (tableBytes nbits w) with
  | .ok (i, _) => some i
  | .error _ => none

end Sys2Proof
end

