-- ==== Sys2Proof/Machine/Flags.lean ====
section
/-! DEFINITION. The one-bit conditions of R27: what sets, clears and tests each. The block has no arithmetic flags. -/

namespace Sys2Proof.Machine

/-- The interrupt latch: a set and a clear in the same step leave it set (R30, R203, R286). -/
def irqLatch (set clear cur : Bool) : Bool := set || (cur && !clear)

/-- The truncation flag after a receive: Device sets it, it does not clear it (R27, R215). -/
def truncatedAfter (cur t : Bool) : Bool := cur || t

/-- The receive status test: the whole word is InputComplete and no flag (R102, R205). -/
def rxStatusOk (st : Word16) : Bool := st == inputComplete

/-- The transmit status test: the whole word is OutputComplete and no flag (R102, R210). -/
def txStatusOk (st : Word16) : Bool := st == outputComplete

/-- The socket is ready: registered at ARB.ARM and a datagram is queued (R201, R287). -/
def sockReady (s : State) : Bool := s.sockRegistered && !s.netIn.isEmpty

/-- The guard of ARB.WAIT (R201). -/
def waitReady (s : State) : Bool := s.irqPending || sockReady s

/-- The socket is in the wait set exactly when Transmit is Host-owned (R224). -/
def sockRegister (w : Owner) : Bool := w == .host

/-- ARB.TXDONE has a completion to examine (R210). -/
def txFinished (s : State) : Bool := s.txOutstanding && s.ifb.wOwner == .host

/-- DEC.PARITY appends the synthetic LevelBit: the length is even (R149). -/
def compNeeded (lLen : Nat) : Bool := lLen % 2 == 0

/-- DEC.ALIGN passes (R156). -/
def aligned (i : Nat) : Bool := i % 16 == 1

/-- The checks of ENC.CHECK, in order (R181, R289). -/
def encRefusal (cfg : Config) (q : Nat) : Option EncError :=
  if q % 2 = 1 then some (.oddLength q)
  else if q + 2 > cfg.wCap then some (.tooLong q)
  else none

/-- The CRC unit is free for a new CRC16 (R120, R124); one unit, used serially (R326). -/
def crcFree (c : CrcUnit) : Bool := c.phase == .idle

/-- The CRC family has the turn: Host stands inside an operation that contains a CRC16, DEC.CHECK or ENC.CRC (R128), or
has not entered its loop (P6). Elsewhere "Host takes no other step" (R201, R219, R292; log entry 25). -/
def crcTurn (s : State) : Bool :=
  match s.hphase with
  | .boot => true
  | .rxDecode => s.dec.phase == .check && decide (2 ≤ s.dec.outLen)
  | .txFill => s.progress == .admitted
  | _ => false

end Sys2Proof.Machine
end

