-- ==== Sys2Proof/Machine/Ops.lean ====
section
/-! DEFINITION. The named operations over memories, buffers, the CRC unit, the log and the result of a decode that the
meanings share. Raising an error (R148, R290) is one operation here; there is no return from one (R291). -/

namespace Sys2Proof.Machine

/-- The outcome of one step. -/
abbrev Out := Host.Outcome State Fault Refusal

/-- Goes on with the next state; a fault or a refusal stays. -/
def Out.andThen (o : Out) (f : State → Out) : Out :=
  match o with
  | .next s => f s
  | .fault r => .fault r
  | .refused r => .refused r

/-- Goes on with the value read; a fault of the read is the step's fault. -/
def reading {α : Type} (x : Except Fault α) (f : α → Out) : Out :=
  match x with
  | .ok v => f v
  | .error r => .fault r

/-- The step is taken only when its phase and guard hold (43_arbiter.md: "An operation whose guard is false is not enabled"). -/
def enabledIf (mnemonic : String) (c : Bool) (o : Out) : Out :=
  if c then o else .refused (.notEnabled mnemonic)

/-! ## Payload memories -/

/-- The value at an index, if the element has one. -/
def Memory.read {α : Type} : Memory α → Nat → Option α
  | [], _ => none
  | (b, v) :: m, a => if a = b then some v else Memory.read m a

/-- Writes one element, keeping the indices strictly rising. -/
def Memory.write {α : Type} : Memory α → Nat → α → Memory α
  | [], a, x => [(a, x)]
  | (b, v) :: m, a, x =>
    if a < b then (a, x) :: (b, v) :: m
    else if a = b then (a, x) :: m
    else (b, v) :: Memory.write m a x

/-- Writes a sequence from an index upward, in index order (R67). -/
def Memory.writeAll {α : Type} (m : Memory α) (a : Nat) : List α → Memory α
  | [] => m
  | x :: xs => Memory.writeAll (Memory.write m a x) (a + 1) xs

/-- Every index of the list is above `a` and the indices rise strictly. -/
def Memory.risingAbove {α : Type} (a : Nat) : Memory α → Bool
  | [] => true
  | (b, _) :: m => decide (a < b) && Memory.risingAbove b m

/-- The canonical form: strictly rising indices. No entry can equal what an unlisted index reads as, which is no value. -/
def Memory.wf {α : Type} : Memory α → Bool
  | [] => true
  | (a, _) :: m => Memory.risingAbove a m

/-- Reads one element of a region of `cap` elements (R60, R69). -/
def loadCell {α : Type} (sp : Space) (cap : Nat) (m : Memory α) (a : Nat) : Except Fault α :=
  if a < cap then
    match Memory.read m a with
    | some v => .ok v
    | none => .error (.unwritten sp a)
  else .error (.outsideRegion sp a)

/-- Reads `n` elements from index `a` upward. -/
def loadSpan {α : Type} (sp : Space) (cap : Nat) (m : Memory α) (a : Nat) : Nat → Except Fault (List α)
  | 0 => .ok []
  | n + 1 =>
    match loadCell sp cap m a with
    | .error r => .error r
    | .ok v =>
      match loadSpan sp cap m (a + 1) n with
      | .error r => .error r
      | .ok vs => .ok (v :: vs)

/-- Writes a sequence from index `a` upward, if all of it lies in the region. -/
def storeSpan {α : Type} (sp : Space) (cap : Nat) (m : Memory α) (a : Nat) (xs : List α) : Except Fault (Memory α) :=
  if a + xs.length ≤ cap then .ok (Memory.writeAll m a xs)
  else .error (.outsideRegion sp (max a cap))

/-! ## Ownership: the only access right (R70) -/

/-- Host touches the Receive buffer only while it owns it (R70, R71). -/
def hostOwnsRx (s : State) (o : Out) : Out :=
  if s.ifb.rOwner = .host then o else .refused (.breaksOwnership .receive)

/-- Host touches the Transmit buffer only while it owns it (R70, R71). -/
def hostOwnsTx (s : State) (o : Out) : Out :=
  if s.ifb.wOwner = .host then o else .refused (.breaksOwnership .transmit)

/-! ## Updates of the state -/

/-- `log(<Event>, info)` (R12, R33). -/
def State.logEvent (s : State) (e : Event) : State := { s with log := s.log ++ [e] }

/-- `hphase <- P` (R12). -/
def State.goto (s : State) (p : HPhase) : State := { s with hphase := p }

/-- The decoder's registers. -/
def State.setDec (s : State) (d : Decoder) : State := { s with dec := d }

/-- The CRC unit's registers. -/
def State.setCrc (s : State) (c : CrcUnit) : State := { s with crc := c }

/-- The InterfaceBlock. -/
def State.setIfb (s : State) (b : Ifb) : State := { s with ifb := b }

/-- What a function operation returned. -/
def State.setResult (s : State) (r : OpResult) : State := { s with result := r }

/-- The parts of the phase's operation taken so far. -/
def State.advance (s : State) (p : Progress) : State := { s with progress := p }

/-- `raise E(info)` inside DEC: "`dec_result <- Error(E, info); dphase <- D_IDLE` and nothing more" (R148). -/
def State.raiseDec (s : State) (e : DecError) : State :=
  s.setDec { s.dec with result := .error e, phase := .idle }

/-! ## CRC unit (R120 to R124) -/

/-- CRC.INIT on the unit (R120). -/
def CrcUnit.init (c : CrcUnit) : CrcUnit := { c with reg := 0x8005, phase := .load }

/-- CRC.LOAD on the unit (R121). -/
def CrcUnit.loadByte (c : CrcUnit) (b : Byte) : CrcUnit := { c with data := crcDataWord b, cnt := 0, phase := .bit }

/-- CRC.BIT on the unit (R122): the feedback is computed from the values before the shift. -/
def CrcUnit.bitStep (c : CrcUnit) : CrcUnit :=
  let feedback := (c.reg ^^^ c.data) &&& 0x8000
  let shifted := c.reg <<< 1
  let cnt := c.cnt + 1
  { reg := if feedback ≠ 0 then shifted ^^^ 0x8005 else shifted
    data := c.data <<< 1
    cnt := cnt
    phase := if cnt = 8 then .load else c.phase }

/-- CRC.BIT `n` times. -/
def CrcUnit.bitSteps : Nat → CrcUnit → CrcUnit
  | 0, c => c
  | n + 1, c => CrcUnit.bitSteps n c.bitStep

/-- CRC.BYTE on the unit: CRC.LOAD, then CRC.BIT eight times (R123). -/
def CrcUnit.byteStep (c : CrcUnit) (b : Byte) : CrcUnit := CrcUnit.bitSteps 8 (c.loadByte b)

/-- CRC16 returns: `cphase <- C_IDLE` (R124). -/
def CrcUnit.returned (c : CrcUnit) : CrcUnit := { c with phase := .idle }

/-- CRC16 on the unit: CRC.INIT, CRC.BYTE for each byte, then `cphase <- C_IDLE` (R124). -/
def CrcUnit.run (c : CrcUnit) (bs : List Byte) : CrcUnit :=
  (bs.foldl CrcUnit.byteStep c.init).returned

/-- An operation of the CRC family: its place in the loop and its phase of the unit. -/
def onCrc (mnemonic : String) (p : CPhase) (s : State) (c : CrcUnit) : Out :=
  enabledIf mnemonic (crcTurn s && s.crc.phase == p) (.next (s.setCrc c))

/-! ## Frames in flight (R35) -/

/-- The Transmit frame in flight: `w_buf[0..w_length-1]` while `w_owner = Device`. -/
def txInFlight (s : State) : Option (Except Fault (List Byte)) :=
  if s.ifb.wOwner = .device then some (loadSpan .wbuf s.cfg.wCap s.wbuf 0 s.ifb.wLength.toNat) else none

/-- The Receive frame in flight: `rx_copy[0..rx_len-1]` from ARB.RXCOPY until ARB.RXDECODE ends. -/
def rxInFlight (s : State) : Option (Except Fault (List Byte)) :=
  if (s.hphase = .rxRelease ∧ s.rxValid = true) ∨ s.hphase = .rxDecode then
    some (loadSpan .rxCopy s.cfg.rCap s.rxCopy 0 s.rxLen) else none

end Sys2Proof.Machine
end

