-- ==== Sys2Proof/Machine/Dec.lean ====
section
/-! DEFINITION. The timing decoder's operations (41_decode.md): classify each duration, restore a lost final half, pair
the LevelBits, check alignment and checksum. The DurationSequence is `rx_copy[0..rx_len-1]`, the only one DEC ever reads. -/

namespace Sys2Proof.Machine

/-! ## What the decoder reads -/

/-- `s[k]` of the DurationSequence. -/
def loadSample (s : State) : Except Fault Byte := loadCell .rxCopy s.cfg.rCap s.rxCopy s.dec.k

/-- `(a, b) = (L[i], L[i+1])` (R155). -/
def loadPair (s : State) : Except Fault (Bool × Bool) :=
  match loadCell .levels s.cfg.lCap s.dec.levels s.dec.i with
  | .error r => .error r
  | .ok a =>
    match loadCell .levels s.cfg.lCap s.dec.levels (s.dec.i + 1) with
    | .error r => .error r
    | .ok b => .ok (a, b)

/-! ## Selection (R90): the phase, and in `D_CLASSIFY` and `D_PAIR` the data, pick the operation -/

/-- The decoder is in this phase, inside ARB.RXDECODE, the only operation that runs it (R141, R209; log entry 7). -/
def decodingAt (p : DPhase) (s : State) : Bool := s.hphase == .rxDecode && s.dec.phase == p

/-- The guard of the sample operations: the phase, and a sample remains. -/
def classifying (s : State) : Bool := decodingAt .classify s && decide (s.dec.k < s.rxLen)

/-- The guard of the pair operations (R155). -/
def pairing (s : State) : Bool :=
  decodingAt .pair s && decide (s.dec.nbits < 8) && decide (s.dec.i + 1 < s.dec.lLen)

/-- The one decoder operation that the decoder's phase and data select, outside `D_IDLE`. -/
def decOp (s : State) : Except Fault Instr :=
  match s.dec.phase with
  | .idle => .ok .decStart
  | .classify =>
    match loadSample s with
    | .ok raw => .ok (sampleOp raw)
    | .error r => .error r
  | .parity => .ok .decParity
  | .pair =>
    if s.dec.nbits = 8 then
      if s.dec.outLen < s.cfg.maxFrameBytes then .ok .decByte else .ok .decOvf
    else
      match loadPair s with
      | .ok (a, b) => .ok (pairOp a b)
      | .error r => .error r
  | .align => .ok .decAlign
  | .check => if s.dec.outLen < 2 then .ok .decRunt else .ok .decCheck
  | .done => .ok .decDone

/-! ## Step 1: classify -/

/-- A decode may start: inside ARB.RXDECODE, which issues it once (R141, R209). -/
def decodeReady (s : State) : Bool := decodingAt .idle s && s.progress == .fresh

/-- DEC.START (R141), "issued by ARB.RXDECODE". -/
def execDecStart (s : State) : Out :=
  enabledIf "DEC.START" (decodeReady s) <| .next <| (s.setDec
    { s.dec with
      level := true, lLen := 0, k := 0, i := 1, acc := 0, nbits := 0, outLen := 0, pairFaults := 0, comp := false
      phase := if s.rxLen = 0 then .parity else .classify }).advance .decoding

/-- What the five sample operations share (R142): the guard, the sample that selects the row, and `width_ns`. -/
def onSample (mnemonic : String) (c : SampleClass) (raw : Byte) (s : State) (f : State → Out) : Out :=
  enabledIf mnemonic (classifying s) <|
    reading (loadSample s) fun r =>
      enabledIf mnemonic (r == raw && classify raw == c) (f (s.setDec { s.dec with widthNs := widthNs raw }))

/-- "toggle level, append" `n` LevelBits, then `k <- k + 1; if k = m then dphase <- D_PARITY` (R142, R144, R146). -/
def toggleAppend (n : Nat) (s : State) : Out :=
  let level := !s.dec.level
  reading (storeSpan .levels s.cfg.lCap s.dec.levels s.dec.lLen (List.replicate n level)) fun levels =>
    .next <| s.setDec
      { s.dec with
        level := level, levels := levels, lLen := s.dec.lLen + n, k := s.dec.k + 1
        phase := if s.dec.k + 1 = s.rxLen then .parity else .classify }

/-- DEC.SHORT (R143). -/
def execDecShort (raw : Byte) (s : State) : Out :=
  onSample "DEC.SHORT" .short raw s fun t => .next (t.raiseDec (.widthTooShort s.dec.k raw))

/-- DEC.SINGLE (R144). -/
def execDecSingle (raw : Byte) (s : State) : Out :=
  onSample "DEC.SINGLE" .single raw s (toggleAppend 1)

/-- DEC.AMBIG (R145). -/
def execDecAmbig (raw : Byte) (s : State) : Out :=
  onSample "DEC.AMBIG" .ambig raw s fun t => .next (t.raiseDec (.widthAmbiguous s.dec.k raw))

/-- DEC.DOUBLE (R146). -/
def execDecDouble (raw : Byte) (s : State) : Out :=
  onSample "DEC.DOUBLE" .double raw s (toggleAppend 2)

/-- DEC.LONG (R147). -/
def execDecLong (raw : Byte) (s : State) : Out :=
  onSample "DEC.LONG" .long raw s fun t => .next (t.raiseDec (.widthTooLong s.dec.k raw))

/-! ## Step 2: end-of-stream compensation -/

/-- DEC.PARITY (R149). -/
def execDecParity (s : State) : Out :=
  enabledIf "DEC.PARITY" (decodingAt .parity s) <|
    if compNeeded s.dec.lLen then
      reading (storeSpan .levels s.cfg.lCap s.dec.levels s.dec.lLen [true]) fun levels =>
        let d := { s.dec with levels := levels, lLen := s.dec.lLen + 1, comp := true }
        .next (s.setDec { d with phase := nextPairPhase d })
    else .next (s.setDec { s.dec with phase := nextPairPhase s.dec })

/-! ## Step 3: pairs into bits and bytes -/

/-- A decoded bit enters `acc`; the next pair (R150, R151, R152). -/
def acceptBit (bit : Bool) (d : Decoder) : Decoder :=
  let d' := { d with acc := shiftIn d.acc bit, nbits := d.nbits + 1, i := d.i + 2 }
  { d' with phase := nextPairPhase d' }

/-- What the pair operations share: the guard of R155 and the pattern that selects the row. -/
def onPair (mnemonic : String) (a b : Bool) (s : State) (o : Out) : Out :=
  enabledIf mnemonic (pairing s) <|
    reading (loadPair s) fun p => enabledIf mnemonic (p.1 == a && p.2 == b) o

/-- A pair fault: logged, counted, decoded as 0 (R152). -/
def pairFault (a : Bool) (s : State) : State :=
  (s.logEvent (.pairFault s.dec.i a)).setDec (acceptBit false { s.dec with pairFaults := s.dec.pairFaults + 1 })

/-- DEC.PAIR1 (R150). -/
def execDecPair1 (s : State) : Out :=
  onPair "DEC.PAIR1" true false s (.next (s.setDec (acceptBit true s.dec)))

/-- DEC.PAIR0 (R151). -/
def execDecPair0 (s : State) : Out :=
  onPair "DEC.PAIR0" false true s (.next (s.setDec (acceptBit false s.dec)))

/-- DEC.PAIRF on `00` (R152). -/
def execDecPairf00 (s : State) : Out :=
  onPair "DEC.PAIRF" false false s (.next (pairFault false s))

/-- DEC.PAIRF on `11` (R152). -/
def execDecPairf11 (s : State) : Out :=
  onPair "DEC.PAIRF" true true s (.next (pairFault true s))

/-- DEC.BYTE (R153). -/
def execDecByte (s : State) : Out :=
  enabledIf "DEC.BYTE"
    (decodingAt .pair s && s.dec.nbits == 8 && decide (s.dec.outLen < s.cfg.maxFrameBytes)) <|
    reading (storeSpan .out s.cfg.maxFrameBytes s.dec.out s.dec.outLen [s.dec.acc]) fun out =>
      let d := { s.dec with out := out, outLen := s.dec.outLen + 1, acc := 0, nbits := 0 }
      .next (s.setDec { d with phase := nextPairPhase d })

/-- DEC.OVF (R154). -/
def execDecOvf (s : State) : Out :=
  enabledIf "DEC.OVF" (decodingAt .pair s && s.dec.nbits == 8 && s.dec.outLen == s.cfg.maxFrameBytes) <|
    .next (s.raiseDec (.overflow s.dec.outLen))

/-! ## Steps 4 and 5: alignment and checksum -/

/-- DEC.ALIGN (R156). -/
def execDecAlign (s : State) : Out :=
  enabledIf "DEC.ALIGN" (decodingAt .align s) <|
    if aligned s.dec.i then .next (s.setDec { s.dec with phase := .check })
    else .next (s.raiseDec (.misaligned s.dec.i))

/-- DEC.RUNT (R157). -/
def execDecRunt (s : State) : Out :=
  enabledIf "DEC.RUNT" (decodingAt .check s && decide (s.dec.outLen < 2)) <|
    .next (s.raiseDec (.frameTooShort s.dec.outLen))

/-- The output bytes `out[0..out_len-1]`. -/
def loadOut (s : State) : Except Fault (List Byte) :=
  loadSpan .out s.cfg.maxFrameBytes s.dec.out 0 s.dec.outLen

/-- The last two bytes as the transmitted checksum (R158, R62). -/
def transmittedCrc (bs : List Byte) : Word16 :=
  beWord (bs.getD (bs.length - 2) 0) (bs.getD (bs.length - 1) 0)

/-- DEC.CHECK (R158); the checksum runs on the one CRC unit (R128, R326). -/
def execDecCheck (s : State) : Out :=
  enabledIf "DEC.CHECK" (decodingAt .check s && decide (2 ≤ s.dec.outLen) && crcFree s.crc) <|
    reading (loadOut s) fun bs =>
      let c := s.crc.run (bs.take (bs.length - 2))
      let t := s.setCrc c
      if c.reg = transmittedCrc bs then .next (t.setDec { t.dec with phase := .done })
      else .next (t.raiseDec (.crcMismatch c.reg (transmittedCrc bs)))

/-- DEC.DONE (R159). -/
def execDecDone (s : State) : Out :=
  enabledIf "DEC.DONE" (decodingAt .done s) <|
    reading (loadOut s) fun bs =>
      .next (s.setDec { s.dec with result := .frame bs s.dec.pairFaults s.dec.comp, phase := .idle })

/-! ## The composite -/

/-- One step of the decoder: the operation its phase and data select. -/
def decStep (s : State) : Out :=
  match decOp s with
  | .error r => .fault r
  | .ok .decStart => execDecStart s
  | .ok (.decShort raw) => execDecShort raw s
  | .ok (.decSingle raw) => execDecSingle raw s
  | .ok (.decAmbig raw) => execDecAmbig raw s
  | .ok (.decDouble raw) => execDecDouble raw s
  | .ok (.decLong raw) => execDecLong raw s
  | .ok .decParity => execDecParity s
  | .ok .decPair1 => execDecPair1 s
  | .ok .decPair0 => execDecPair0 s
  | .ok .decPairf00 => execDecPairf00 s
  | .ok .decPairf11 => execDecPairf11 s
  | .ok .decByte => execDecByte s
  | .ok .decOvf => execDecOvf s
  | .ok .decAlign => execDecAlign s
  | .ok .decRunt => execDecRunt s
  | .ok .decCheck => execDecCheck s
  | .ok .decDone => execDecDone s
  | .ok _ => .refused (.notEnabled "DEC")

/-- Steps of the decoder until it is back in `D_IDLE`, at most `n`. -/
def decLoop : Nat → State → Out
  | 0, s => .next s
  | n + 1, s => if s.dec.phase = .idle then .next s else Out.andThen (decStep s) (decLoop n)

/-- More steps than a decode of `m` samples takes: `m` samples, at most `m` pairs, a byte after each eighth, five more. -/
def decSteps (m : Nat) : Nat := 3 * m + 8

/-- DEC by its expansion into primitives (R160): DEC.START, then the selected operations until `D_IDLE`. -/
def decRun (s : State) : Out := Out.andThen (execDecStart s) (decLoop (decSteps s.rxLen))

/-- DEC (R140, R160). -/
def execDec (s : State) : Out :=
  enabledIf "DEC" (decodeReady s && crcFree s.crc) (decRun s)

end Sys2Proof.Machine
end

