-- ==== Sys2Proof/Machine/Rly.lean ====
section
/-! DEFINITION. The UDP relay framing (44_relay.md). -/

namespace Sys2Proof.Machine

/-- RLY.IN as a function of the wire frame (R250): the datagram to broadcast, or RelayOddFrame. -/
def relayIn (f : List Byte) : Except RlyError Datagram :=
  let q := f.length - 2
  if q % 2 = 1 then .error (.oddFrame f.length)
  else .ok (datagramOf (BitVec.ofNat 16 (q / 2)) (f.take q))

/-- RLY.OUT as a function of the datagram (R251): the payload and the HeaderMismatch to log, or RelayMalformed. -/
def relayOut (g : Datagram) : Except RlyError (List Byte × Option Event) :=
  match g with
  | h :: l :: p =>
    let wc := beWord h l
    .ok (p, if 2 * wc.toNat = p.length then none else some (.headerMismatch wc p.length))
  | _ => .error (.malformed g.length)

/-- Broadcasts one datagram (R250). -/
def State.broadcast (s : State) (g : Datagram) : State := { s with netOut := s.netOut ++ [g] }

/-- Appends the event, if there is one. -/
def State.logIf (s : State) : Option Event → State
  | some e => s.logEvent e
  | none => s

/-- The last decode returned the frame `f`. -/
def decodedFrame (r : DecResult) (f : List Byte) : Bool :=
  match r with
  | .frame bs _ _ => bs == f
  | .error _ => false

/-- DEC of the present frame has returned, by its parts or as one of them, and nothing was done with its result. -/
def decodeReturned (s : State) : Bool :=
  s.hphase == .rxDecode && s.dec.phase == .idle && s.progress == .decoding

/-- RLY.IN (R250), inside ARB.RXDECODE, once, when DEC has returned the frame. Its caller logs an error. -/
def execRlyIn (f : List Byte) (s : State) : Out :=
  enabledIf "RLY.IN" (decodeReturned s && decodedFrame s.dec.result f) <|
    match relayIn f with
    | .ok g => .next (((s.broadcast g).setResult .relayed).advance .relayed)
    | .error e => .next ((s.setResult (.rlyError e)).advance .relayed)

/-- RLY.OUT (R251), the first step of ARB.TXFILL, on `tx_dgram`. Its caller logs an error. -/
def execRlyOut (g : Datagram) (s : State) : Out :=
  enabledIf "RLY.OUT" (s.hphase == .txFill && s.progress == .fresh && s.txDgram == g) <|
    match relayOut g with
    | .ok (p, e) => .next (((s.logIf e).setResult (.payload p)).advance .unframed)
    | .error e => .next ((s.setResult (.rlyError e)).advance .ended)

end Sys2Proof.Machine
end

