-- ==== Sys2Proof/Machine/Enc.lean ====
section
/-! DEFINITION. The encoder (42_encode.md R180 to R184) and the Device's reference serialiser (R185, R186). -/

namespace Sys2Proof.Machine

/-! ## Encoder -/

/-- ENC.CHECK passed: `enc_len <- q` (R181). -/
def encAdmit (q : Nat) (s : State) : State := { s with enc := { s.enc with len := q } }

/-- ENC.CRC's effect (R182), on the one CRC unit. -/
def encChecksum (p : List Byte) (s : State) : State :=
  let c := s.crc.run (p.take s.enc.len)
  { s.setCrc c with enc := { s.enc with crc := c.reg } }

/-- ENC.FILL's effect (R183): the wire frame into `w_buf`, then its count into `w_length`. -/
def encStore (p : List Byte) (s : State) : Out :=
  hostOwnsTx s <|
    reading (storeSpan .wbuf s.cfg.wCap s.wbuf 0 (p.take s.enc.len ++ [hi s.enc.crc, lo s.enc.crc])) fun m =>
      .next { s with wbuf := m, ifb := { s.ifb with wLength := BitVec.ofNat 32 (s.enc.len + 2) } }

/-- ENC after its checks: ENC.CRC, then ENC.FILL (R184). -/
def encCommit (p : List Byte) (s : State) : Out := encStore p (encChecksum p (encAdmit p.length s))

/-- The payload RLY.OUT extracts from `tx_dgram`, the one ENC is given inside the block (R180). -/
def txPayload (s : State) : Option (List Byte) :=
  match relayOut s.txDgram with
  | .ok (p, _) => some p
  | .error _ => none

/-- Inside ARB.TXFILL, with its parts taken as far as `a` (R181: "first step of ENC (inside ARB.TXFILL)"; log entry 8). -/
def fillingAt (a : Progress) (s : State) : Bool := s.hphase == .txFill && s.progress == a

/-- ENC.CHECK (R181), on the length of the payload RLY.OUT returned. -/
def execEncCheck (q : Nat) (s : State) : Out :=
  enabledIf "ENC.CHECK" (fillingAt .unframed s && (txPayload s).map List.length == some q) <|
    match encRefusal s.cfg q with
    | some e => .next ((s.setResult (.encError e)).advance .ended)
    | none => .next (((encAdmit q s).setResult .encOk).advance .admitted)

/-- ENC.CRC (R182), "after ENC.CHECK". -/
def execEncCrc (p : List Byte) (s : State) : Out :=
  enabledIf "ENC.CRC" (fillingAt .admitted s && txPayload s == some p && crcFree s.crc) <|
    .next ((encChecksum p s).advance .summed)

/-- ENC.FILL (R183), "after ENC.CRC". -/
def execEncFill (p : List Byte) (s : State) : Out :=
  enabledIf "ENC.FILL" (fillingAt .summed s && txPayload s == some p) <|
    Out.andThen (encStore p s) fun t => .next (t.advance .ended)

/-- ENC (R180, R184), on the payload RLY.OUT returned. -/
def execEnc (p : List Byte) (s : State) : Out :=
  enabledIf "ENC" (fillingAt .unframed s && txPayload s == some p && crcFree s.crc) <|
    match encRefusal s.cfg p.length with
    | some e => .next ((s.setResult (.encError e)).advance .ended)
    | none => Out.andThen (encCommit p s) fun t => .next ((t.setResult .encOk).advance .ended)

/-! ## Reference serialiser -/

/-- The halves of one data bit: `v, !v` (R97, R185). -/
def bitHalves (v : Bool) : List Bool := [v, !v]

/-- The half-bit levels of a wire frame: the sync bit `1, 0`, then every bit of every byte, most significant first (R185). -/
def serialLevels (w : List Byte) : List Bool :=
  [true, false] ++ w.flatMap fun b => (bitsMsbFirst b).flatMap bitHalves

/-- The maximal runs of equal values, in order, each with its length. -/
def levelRuns : List Bool → List (Bool × Nat)
  | [] => []
  | v :: vs =>
    match levelRuns vs with
    | [] => [(v, 1)]
    | (u, n) :: rs => if u = v then (u, n + 1) :: rs else (v, 1) :: (u, n) :: rs

/-- A final run of level 1 has no closing transition (R186). -/
def dropOpenRun (rs : List (Bool × Nat)) : List (Bool × Nat) :=
  match rs.getLast? with
  | some (true, _) => rs.dropLast
  | _ => rs

/-- The duration of one run (R186). -/
def runDuration (cfg : Config) (r : Bool × Nat) : Byte := if r.2 = 1 then cfg.tHalfRaw else cfg.tFullRaw

/-- The DurationSequence the Device would record for the levels `H` (R186): the runs of `H[1..]`. -/
def serialDurations (cfg : Config) (h : List Bool) : List Byte :=
  (dropOpenRun (levelRuns (h.drop 1))).map (runDuration cfg)

/-- SER.LEVELS (R185). -/
def execSerLevels (w : List Byte) (s : State) : Out := .next (s.setResult (.levels (serialLevels w)))

/-- SER.DUR (R186). -/
def execSerDur (h : List Bool) (s : State) : Out := .next (s.setResult (.durations (serialDurations s.cfg h)))

end Sys2Proof.Machine
end

