-- ==== Sys2Proof/Machine/Arb.lean ====
section
/-! DEFINITION. The ownership arbiter: the Host operations in loop order (43_arbiter.md). Every error is an event in the
log and the next phase of the loop, as after success (R290, R291). -/

namespace Sys2Proof.Machine

/-- The Host operation of one phase. -/
def atPhase (mnemonic : String) (p : HPhase) (s : State) (o : Out) : Out := enabledIf mnemonic (s.hphase == p) o

/-- ARB.BOOT (R223, R292). A CRC16 begun before the loop is finished first: Host is one thread (R14; log entry 25). -/
def execArbBoot (s : State) : Out :=
  atPhase "ARB.BOOT" .boot s <| enabledIf "ARB.BOOT" (crcFree s.crc) <|
    if s.bootOk then .next (s.goto .arm) else .next ((s.logEvent .fatalStartup).goto .halt)

/-- ARB.ARM (R224): an acquire read of `w_owner`. -/
def execArbArm (s : State) : Out :=
  atPhase "ARB.ARM" .arm s <| .next ({ s with sockRegistered := sockRegister s.ifb.wOwner }.goto .wait)

/-- ARB.WAIT (R201). -/
def execArbWait (s : State) : Out :=
  atPhase "ARB.WAIT" .wait s <| enabledIf "ARB.WAIT" (waitReady s) <|
    .next ({ s with wokeIrq := s.irqPending, wokeSock := sockReady s }.goto .ack)

/-- ARB.TICK (R202): a model without time lets it fire whenever ARB.WAIT is not enabled. -/
def execArbTick (s : State) : Out :=
  atPhase "ARB.TICK" .wait s <| enabledIf "ARB.TICK" (!waitReady s) <|
    .next (({ s with wokeIrq := false, wokeSock := false }.logEvent .tick).goto .ack)

/-- ARB.ACK (R203). -/
def execArbAck (s : State) : Out :=
  atPhase "ARB.ACK" .ack s <| .next ({ s with irqPending := irqLatch false s.wokeIrq s.irqPending }.goto .rxTest)

/-- ARB.RXTEST (R204): an acquire read of `r_owner`. -/
def execArbRxtest (s : State) : Out :=
  atPhase "ARB.RXTEST" .rxTest s <|
    if s.ifb.rOwner = .host then .next (s.goto .rxStatus) else .next (s.goto .txDone)

/-- The number of samples of the diagnostic dump (R205). -/
def dumpLength (s : State) : Nat := min s.ifb.rReceivedLength.toNat s.ifb.rMaxLength.toNat

/-- A bad receive status: logged, with the optional dump of the raw payload (R205, R278, R297). -/
def rejectStatus (s : State) : Out :=
  let t := { s with rxValid := false }.logEvent (.rxStatus s.ifb.rStatus)
  if s.cfg.diagDump then
    reading (loadSpan .rbuf s.cfg.rCap s.rbuf 0 (dumpLength s)) fun p =>
      .next ((t.logEvent (.diagDump p)).goto .rxTrunc)
  else .next (t.goto .rxTrunc)

/-- ARB.RXSTATUS (R205). -/
def execArbRxstatus (s : State) : Out :=
  atPhase "ARB.RXSTATUS" .rxStatus s <| hostOwnsRx s <|
    if rxStatusOk s.ifb.rStatus then
      if s.ifb.rMaxLength < s.ifb.rReceivedLength then
        .next (({ s with rxValid := false }.logEvent (.rxLength s.ifb.rReceivedLength)).goto .rxTrunc)
      else .next ({ s with rxValid := true }.goto .rxTrunc)
    else rejectStatus s

/-- ARB.RXTRUNC's effect on the flag and the log (R206). -/
def clearTruncated (s : State) : State :=
  if s.ifb.rTruncated then
    (s.logEvent (.rxTruncated s.ifb.rReceivedLength)).setIfb { s.ifb with rTruncated := false }
  else s

/-- ARB.RXTRUNC (R206). -/
def execArbRxtrunc (s : State) : Out :=
  atPhase "ARB.RXTRUNC" .rxTrunc s <| hostOwnsRx s <|
    .next ((clearTruncated s).goto (if s.rxValid then .rxCopy else .rxRelease))

/-- ARB.RXCOPY (R207). -/
def execArbRxcopy (s : State) : Out :=
  atPhase "ARB.RXCOPY" .rxCopy s <| hostOwnsRx s <|
    reading (loadSpan .rbuf s.cfg.rCap s.rbuf 0 s.ifb.rReceivedLength.toNat) fun xs =>
      reading (storeSpan .rxCopy s.cfg.rCap s.rxCopy 0 xs) fun m =>
        .next ({ s with rxLen := s.ifb.rReceivedLength.toNat, rxCopy := m }.goto .rxRelease)

/-- ARB.RXRELEASE (R208): the release write of `r_owner`. -/
def execArbRxrelease (s : State) : Out :=
  atPhase "ARB.RXRELEASE" .rxRelease s <| hostOwnsRx s <|
    .next ((s.setIfb { s.ifb with rOwner := .device }).goto (if s.rxValid then .rxDecode else .txDone))

/-- What ARB.RXDECODE does with the outcome of DEC (R209): relay a good frame, unless RLY.IN already ran, for the block
sends "exactly one datagram" per frame (R252); log an error. -/
def deliver (s : State) : State :=
  match s.dec.result with
  | .frame f _ _ =>
    match relayIn f with
    | .ok g => if s.progress = .relayed then s else s.broadcast g
    | .error e => s.logEvent (.relay e)
  | .error e => s.logEvent (.decode e)

/-- DEC for ARB.RXDECODE (R209): as one step (D33), or already taken by its parts. -/
def decodeOnce (s : State) : Out :=
  if s.progress = .decoding ∨ s.progress = .relayed then .next s else decRun s

/-- ARB.RXDECODE (R209). -/
def execArbRxdecode (s : State) : Out :=
  atPhase "ARB.RXDECODE" .rxDecode s <|
    enabledIf "ARB.RXDECODE" (s.dec.phase == .idle && crcFree s.crc) <|
      Out.andThen (decodeOnce s) fun t =>
        .next (({ deliver t with rxValid := false }.goto .txDone).advance .fresh)

/-- ARB.TXDONE's examination of a finished transmit (R210). -/
def examineTransmit (s : State) : State :=
  if txFinished s then
    { s.logIf (if txStatusOk s.ifb.wStatus then none else some (.txStatus s.ifb.wStatus)) with txOutstanding := false }
  else s

/-- ARB.TXDONE (R210): an acquire read of `w_owner`. -/
def execArbTxdone (s : State) : Out :=
  atPhase "ARB.TXDONE" .txDone s <| .next ((examineTransmit s).goto .txTest)

/-- ARB.TXTEST (R211). -/
def execArbTxtest (s : State) : Out :=
  atPhase "ARB.TXTEST" .txTest s <|
    if s.wokeSock then
      match s.netIn with
      | g :: gs => .next ({ s with txDgram := g, netIn := gs }.goto .txOwner)
      | [] => .fault .emptyQueue
    else .next (s.goto .arm)

/-- The datagram is dropped and the error logged (R212, R213). -/
def dropDatagram (e : Event) (s : State) : State := ({ s with txDgram := [] }.logEvent e).goto .arm

/-- ARB.TXOWNER (R212): an acquire read of `w_owner`. -/
def execArbTxowner (s : State) : Out :=
  atPhase "ARB.TXOWNER" .txOwner s <|
    if s.ifb.wOwner = .host then .next (s.goto .txFill)
    else .next (dropDatagram (.ownership s.txDgram.length) s)

/-- ARB.TXFILL after RLY.OUT: ENC of the payload (R213). -/
def fillPayload (p : List Byte) (s : State) : Out :=
  match encRefusal s.cfg p.length with
  | some e => .next ((dropDatagram (.encode e) s).advance .fresh)
  | none =>
    Out.andThen (encCommit p s) fun t => .next (({ t with txDgram := [] }.goto .txRelease).advance .fresh)

/-- ARB.TXFILL (R213). Parts already taken are repeated, on Host-private state and on the buffer Host owns, with the same
outcome (log entry 26); what RLY.OUT logged is not logged twice. -/
def execArbTxfill (s : State) : Out :=
  atPhase "ARB.TXFILL" .txFill s <| enabledIf "ARB.TXFILL" (crcFree s.crc) <|
    match relayOut s.txDgram with
    | .error e => .next ((dropDatagram (.relay e) s).advance .fresh)
    | .ok (p, mismatch) => fillPayload p (s.logIf (if s.progress = .fresh then mismatch else none))

/-- ARB.TXRELEASE (R214): the release write of `w_owner`, then the kick. -/
def execArbTxrelease (s : State) : Out :=
  atPhase "ARB.TXRELEASE" .txRelease s <| hostOwnsTx s <|
    .next ({ s.setIfb { s.ifb with wOwner := .device } with txOutstanding := true, kickPending := true }.goto .arm)

end Sys2Proof.Machine
end

