-- ==== Sys2Proof/Machine/Crc.lean ====
section
/-! DEFINITION. The CRC-16 unit's operations (40_crc.md). None raises an error or writes a flag. The spec gives the phase
of the unit in which each is taken; in which phase of the Host loop is the model's choice (`crcTurn`; log entry 25). -/

namespace Sys2Proof.Machine

/-- CRC.INIT (R120). -/
def execCrcInit (s : State) : Out := onCrc "CRC.INIT" .idle s s.crc.init

/-- CRC.LOAD (R121). That a byte remains is the trace's to say: it offers one. -/
def execCrcLoad (b : Byte) (s : State) : Out := onCrc "CRC.LOAD" .load s (s.crc.loadByte b)

/-- CRC.BIT (R122). -/
def execCrcBit (s : State) : Out :=
  enabledIf "CRC.BIT" (decide (s.crc.cnt < 8)) (onCrc "CRC.BIT" .bit s s.crc.bitStep)

/-- CRC.BYTE (R123). -/
def execCrcByte (b : Byte) (s : State) : Out := onCrc "CRC.BYTE" .load s (s.crc.byteStep b)

/-- CRC16 (R124); its result is `crc_reg`. -/
def execCrc16 (bs : List Byte) (s : State) : Out := onCrc "CRC16" .idle s (s.crc.run bs)

/-- A CRC16 taken by its primitives has no operation left but its return: "no byte remains: CRC16 returns" (P6, R124). -/
def crcReturns (s : State) : Bool := crcTurn s && s.crc.phase == .load

/-- The return of a CRC16 taken by its primitives (R124, P6). It has no row in the opcode table (log entry 6). -/
def execCrcReturn (s : State) : Out := onCrc "CRC16" .load s s.crc.returned

end Sys2Proof.Machine
end

