-- ==== Sys2Proof/Machine/Env.lean ====
section
/-! DEFINITION. The environment agents Device and Network as far as the block depends on them (R215 to R218). Device has
no step that breaks R70 (R71, U1). -/

namespace Sys2Proof.Machine

/-- DEV.RXDONE (R215): payload, length, `truncated`, status, then the owner; the signal follows in DEV.SIGNAL. -/
def execDevRxdone (d : List Byte) (st : Word16) (t : Bool) (s : State) : Out :=
  enabledIf "DEV.RXDONE" (s.ifb.rOwner == .device) <|
    if s.ifb.rMaxLength.toNat < d.length then .refused (.breaksDeviceBound d.length)
    else reading (storeSpan .rbuf s.cfg.rCap s.rbuf 0 d) fun m =>
      .next
        { s with
          rbuf := m
          ifb := { s.ifb with
                   rReceivedLength := BitVec.ofNat 32 d.length
                   rTruncated := truncatedAfter s.ifb.rTruncated t
                   rStatus := st
                   rOwner := .host }
          devSigOwed := true }

/-- DEV.TXDONE (R216); Device writes neither `w_buf` nor `w_length`. -/
def execDevTxdone (st : Word16) (s : State) : Out :=
  enabledIf "DEV.TXDONE" (s.ifb.wOwner == .device) <|
    .next { s with kickPending := false, ifb := { s.ifb with wStatus := st, wOwner := .host }, devSigOwed := true }

/-- DEV.SIGNAL (R217). -/
def execDevSignal (s : State) : Out :=
  enabledIf "DEV.SIGNAL" s.devSigOwed <|
    .next { s with irqPending := irqLatch true false s.irqPending, devSigOwed := false }

/-- NET.ARRIVE (R218): always enabled; the network may lose the datagram. -/
def execNetArrive (g : Datagram) (lost : Bool) (s : State) : Out :=
  .next { s with netIn := if lost then s.netIn else s.netIn ++ [g] }

/-- DEV.SIGNAL and ARB.ACK in the same step: what is left of `irq_pending`; the set wins (R30, R203, U11). -/
def signalDuringAck (s : State) : Bool := irqLatch s.devSigOwed s.wokeIrq s.irqPending

end Sys2Proof.Machine
end

