-- ==== Sys2Proof/Machine/Select.lean ====
section
/-! DEFINITION. Selection of the Host's next operation by phase and data (R90), the state in which a given operation is
selected, and the controls of a trace. -/

namespace Sys2Proof.Machine

/-- The operation the phase of the Host loop selects (R104); `H_HALT` selects none (R223). -/
def hostOp (s : State) : Except Fault Instr :=
  match s.hphase with
  | .boot => .ok .arbBoot
  | .arm => .ok .arbArm
  | .wait => .ok (if waitReady s then .arbWait else .arbTick)
  | .ack => .ok .arbAck
  | .rxTest => .ok .arbRxtest
  | .rxStatus => .ok .arbRxstatus
  | .rxTrunc => .ok .arbRxtrunc
  | .rxCopy => .ok .arbRxcopy
  | .rxRelease => .ok .arbRxrelease
  | .rxDecode => .ok .arbRxdecode
  | .txDone => .ok .arbTxdone
  | .txTest => .ok .arbTxtest
  | .txOwner => .ok .arbTxowner
  | .txFill => .ok .arbTxfill
  | .txRelease => .ok .arbTxrelease
  | .halt => .error .halted

/-- The Host's next operation: a byte begun in the CRC unit is finished first, then a decode begun by its primitives, then
the loop goes on (log entry 20). -/
def select (s : State) : Except Fault Instr :=
  if crcTurn s = true ∧ s.crc.phase = .bit then .ok .crcBit
  else if s.hphase = .rxDecode ∧ s.dec.phase ≠ .idle then decOp s
  else hostOp s

/-- What a trace can hold beside the operations of the opcode table (log entries 6 and 18). -/
inductive TraceControl where
  /-- The reset input, and the level of `boot_ok` when `rst` is released (R310, R39). -/
  | reset (bootOk : Bool)
  /-- The return of a CRC16 taken by its primitives (R124, P6). -/
  | crcReturn
  deriving DecidableEq, Repr

/-- The controls of a trace: `0xFF` and a byte 0 or 1, or `0xFE` and a byte 0. No operation's bytes begin with either. -/
def traceControl : List Byte → Option (TraceControl × List Byte)
  | b :: f :: r =>
    if b = 0xFF ∧ f = 0 then some (.reset false, r)
    else if b = 0xFF ∧ f = 1 then some (.reset true, r)
    else if b = 0xFE ∧ f = 0 then some (.crcReturn, r)
    else none
  | _ => none

/-- The decoder registers and levels under which the pair `(a, b)` waits at index 1. -/
def pairWaiting (a b : Bool) (d : Decoder) : Decoder :=
  { d with phase := .pair, nbits := 0, i := 1, lLen := 3, levels := [(0, false), (1, a), (2, b)] }

/-- Host inside ARB.RXDECODE, a decode going on in a decoder phase. -/
def decodingIn (p : DPhase) (s : State) : State :=
  ((s.setDec { s.dec with phase := p }).goto .rxDecode).advance .decoding

/-- A one-sample sequence whose sample is about to be classified. -/
def sampleWaiting (raw : Byte) (s : State) : State :=
  decodingIn .classify { s with rxLen := 1, rxCopy := [(0, raw)], dec := { s.dec with k := 0, lLen := 0 } }

/-- Host inside ARB.TXFILL on a datagram with this payload, its parts taken as far as `a`. -/
def fillingWith (a : Progress) (p : List Byte) (s : State) : State :=
  (({ s with txDgram := 0 :: 0 :: p, ifb := { s.ifb with wOwner := .host } }.setCrc s.crc.returned).goto .txFill).advance a

/-- `s` with the phase registers and the guarding data set so that operation `i` is the one selected. -/
def State.selecting (s : State) : Instr → State
  | .crcInit | .crc16 _ => (s.setCrc { s.crc with phase := .idle }).goto .boot
  | .crcLoad _ | .crcByte _ => (s.setCrc { s.crc with phase := .load }).goto .boot
  | .crcBit => (s.setCrc { s.crc with phase := .bit, cnt := 0 }).goto .boot
  | .decStart | .dec | .arbRxdecode =>
    (((s.setCrc s.crc.returned).setDec { s.dec with phase := .idle }).goto .rxDecode).advance .fresh
  | .decShort raw | .decSingle raw | .decAmbig raw | .decDouble raw | .decLong raw => sampleWaiting raw s
  | .decParity => decodingIn .parity (s.setDec { s.dec with lLen := 0 })
  | .decPair1 => decodingIn .pair (s.setDec (pairWaiting true false s.dec))
  | .decPair0 => decodingIn .pair (s.setDec (pairWaiting false true s.dec))
  | .decPairf00 => decodingIn .pair (s.setDec (pairWaiting false false s.dec))
  | .decPairf11 => decodingIn .pair (s.setDec (pairWaiting true true s.dec))
  | .decByte => decodingIn .pair (s.setDec { s.dec with nbits := 8, outLen := 0 })
  | .decOvf => decodingIn .pair (s.setDec { s.dec with nbits := 8, outLen := s.cfg.maxFrameBytes })
  | .decAlign => decodingIn .align s
  | .decRunt => decodingIn .check (s.setDec { s.dec with outLen := 0 })
  | .decCheck =>
    decodingIn .check ((s.setCrc s.crc.returned).setDec { s.dec with outLen := 2, out := [(0, 0x80), (1, 0x05)] })
  | .decDone => decodingIn .done (s.setDec { s.dec with outLen := 0 })
  | .rlyIn f => decodingIn .idle (s.setDec { s.dec with result := .frame f 0 false })
  | .rlyOut g => { fillingWith .fresh [] s with txDgram := g }
  | .encCheck q => fillingWith .unframed (List.replicate q 0) s
  | .enc p => fillingWith .unframed p s
  | .encCrc p => encAdmit p.length (fillingWith .admitted p s)
  | .encFill p => encAdmit p.length (fillingWith .summed p s)
  | .arbTxfill => fillingWith .fresh [] s
  | .serLevels _ | .serDur _ | .netArrive _ _ => s
  | .arbBoot => (s.setCrc s.crc.returned).goto .boot
  | .arbArm => s.goto .arm
  | .arbWait => { s with irqPending := true }.goto .wait
  | .arbTick => { s with irqPending := false, sockRegistered := false }.goto .wait
  | .arbAck => s.goto .ack
  | .arbRxtest => s.goto .rxTest
  | .arbRxstatus => (s.setIfb { s.ifb with rOwner := .host, rReceivedLength := 0 }).goto .rxStatus
  | .arbRxtrunc => (s.setIfb { s.ifb with rOwner := .host }).goto .rxTrunc
  | .arbRxcopy => (s.setIfb { s.ifb with rOwner := .host, rReceivedLength := 0 }).goto .rxCopy
  | .arbRxrelease => (s.setIfb { s.ifb with rOwner := .host }).goto .rxRelease
  | .arbTxdone => s.goto .txDone
  | .arbTxtest => { s with wokeSock := false }.goto .txTest
  | .arbTxowner => s.goto .txOwner
  | .arbTxrelease => (s.setIfb { s.ifb with wOwner := .host }).goto .txRelease
  | .devRxdone _ _ _ => s.setIfb { s.ifb with rOwner := .device }
  | .devTxdone _ => s.setIfb { s.ifb with wOwner := .device }
  | .devSignal => { s with devSigOwed := true }

end Sys2Proof.Machine
end

