-- ==== Sys2Proof/Machine/Dispatch.lean ====
section
/-! DEFINITION. One arm per operation, each one direct call of its meaning. -/

namespace Sys2Proof.Machine

def exec (i : Instr) (s : State) : Host.Outcome State Fault Refusal :=
  match i with
  | .crcInit => Sys2Proof.Machine.execCrcInit s
  | .crcLoad b => Sys2Proof.Machine.execCrcLoad b s
  | .crcBit => Sys2Proof.Machine.execCrcBit s
  | .crcByte b => Sys2Proof.Machine.execCrcByte b s
  | .crc16 bs => Sys2Proof.Machine.execCrc16 bs s
  | .decStart => Sys2Proof.Machine.execDecStart s
  | .decShort raw => Sys2Proof.Machine.execDecShort raw s
  | .decSingle raw => Sys2Proof.Machine.execDecSingle raw s
  | .decAmbig raw => Sys2Proof.Machine.execDecAmbig raw s
  | .decDouble raw => Sys2Proof.Machine.execDecDouble raw s
  | .decLong raw => Sys2Proof.Machine.execDecLong raw s
  | .decParity => Sys2Proof.Machine.execDecParity s
  | .decPair1 => Sys2Proof.Machine.execDecPair1 s
  | .decPair0 => Sys2Proof.Machine.execDecPair0 s
  | .decPairf00 => Sys2Proof.Machine.execDecPairf00 s
  | .decPairf11 => Sys2Proof.Machine.execDecPairf11 s
  | .decByte => Sys2Proof.Machine.execDecByte s
  | .decOvf => Sys2Proof.Machine.execDecOvf s
  | .decAlign => Sys2Proof.Machine.execDecAlign s
  | .decRunt => Sys2Proof.Machine.execDecRunt s
  | .decCheck => Sys2Proof.Machine.execDecCheck s
  | .decDone => Sys2Proof.Machine.execDecDone s
  | .dec => Sys2Proof.Machine.execDec s
  | .encCheck q => Sys2Proof.Machine.execEncCheck q s
  | .encCrc p => Sys2Proof.Machine.execEncCrc p s
  | .encFill p => Sys2Proof.Machine.execEncFill p s
  | .enc p => Sys2Proof.Machine.execEnc p s
  | .serLevels w => Sys2Proof.Machine.execSerLevels w s
  | .serDur h => Sys2Proof.Machine.execSerDur h s
  | .arbBoot => Sys2Proof.Machine.execArbBoot s
  | .arbArm => Sys2Proof.Machine.execArbArm s
  | .arbWait => Sys2Proof.Machine.execArbWait s
  | .arbTick => Sys2Proof.Machine.execArbTick s
  | .arbAck => Sys2Proof.Machine.execArbAck s
  | .arbRxtest => Sys2Proof.Machine.execArbRxtest s
  | .arbRxstatus => Sys2Proof.Machine.execArbRxstatus s
  | .arbRxtrunc => Sys2Proof.Machine.execArbRxtrunc s
  | .arbRxcopy => Sys2Proof.Machine.execArbRxcopy s
  | .arbRxrelease => Sys2Proof.Machine.execArbRxrelease s
  | .arbRxdecode => Sys2Proof.Machine.execArbRxdecode s
  | .arbTxdone => Sys2Proof.Machine.execArbTxdone s
  | .arbTxtest => Sys2Proof.Machine.execArbTxtest s
  | .arbTxowner => Sys2Proof.Machine.execArbTxowner s
  | .arbTxfill => Sys2Proof.Machine.execArbTxfill s
  | .arbTxrelease => Sys2Proof.Machine.execArbTxrelease s
  | .devRxdone d st t => Sys2Proof.Machine.execDevRxdone d st t s
  | .devTxdone st => Sys2Proof.Machine.execDevTxdone st s
  | .devSignal => Sys2Proof.Machine.execDevSignal s
  | .netArrive g lost => Sys2Proof.Machine.execNetArrive g lost s
  | .rlyIn f => Sys2Proof.Machine.execRlyIn f s
  | .rlyOut g => Sys2Proof.Machine.execRlyOut g s

end Sys2Proof.Machine
end

