-- ==== Sys2Proof/Machine/Step.lean ====
section
/-! DEFINITION. One step of the machine: the next operation of the trace, or, when no trace is left, the operation the
Host sequencer selects by itself. -/

namespace Sys2Proof.Machine

/-- One step (R14). The trace in `feed` says which agent moves next and what the environment chose; an operation it
names is taken only if it is enabled. With no trace left Host runs alone (log entry 1), and a CRC16 left without a next
byte returns (log entry 6). `rst` resets the block whatever it does (R310). -/
def step (s : State) : Host.Outcome State Fault Refusal :=
  match s.feed with
  | [] =>
    if crcReturns s then execCrcReturn s
    else
      match select s with
      | .ok i => exec i s
      | .error r => .fault r
  | _ :: _ =>
    match traceControl s.feed with
    | some (.reset bootOk, rest) => .next (State.resetFor s.cfg bootOk rest)
    | some (.crcReturn, rest) => execCrcReturn { s with feed := rest }
    | none =>
      match decode s.feed with
      | .ok (i, rest) => exec i { s with feed := rest }
      | .error e => .refused (.undecodable e)

/-- `s` with a table word's operation at the head of the trace, and with the phase and guarding data that select it: an
operation of this block is selected by the state (R90), so the very next step runs it (log entry 2). -/
def State.withFetchWord (s : State) (nbits w : Nat) : State :=
  match decodeTableWord nbits w with
  | some i => { s.selecting i with feed := encode i ++ s.feed }
  | none => { s with feed := tableBytes nbits w ++ s.feed }

end Sys2Proof.Machine
end

