-- ==== Sys2Proof/Machine/Closed.lean ====
section
/-! DEFINITION. The closed pseudocode of the composites (R123, R124, R160, R184) and of the two handlers' data path,
written from the spec's closed forms and not from the primitives. The machine runs the primitives; statements compare. -/

namespace Sys2Proof.Machine

/-! ## CRC16 (R123, R124) -/

/-- `n` iterations of the closed CRC.BYTE loop on `crc_reg` and `data`. -/
def crcIterate : Nat → Word16 → Word16 → Word16
  | 0, reg, _ => reg
  | n + 1, reg, data =>
    crcIterate n (if (reg ^^^ data) &&& 0x8000 ≠ 0 then (reg <<< 1) ^^^ 0x8005 else reg <<< 1) (data <<< 1)

/-- CRC.BYTE from the register `reg` (R123). -/
def crcByte (reg : Word16) (b : Byte) : Word16 := crcIterate 8 reg (crcDataWord b)

/-- The checksum of a byte sequence from a given initial register. -/
def crcFrom (reg : Word16) (bs : List Byte) : Word16 := bs.foldl crcByte reg

/-- CRC16 (R124). -/
def crc16 (bs : List Byte) : Word16 := crcFrom 0x8005 bs

/-- The wire frame of a payload: the payload and its checksum, big-endian (R96). -/
def wireFrame (p : List Byte) : List Byte := p ++ [hi (crc16 p), lo (crc16 p)]

/-! ## DEC (R160) -/

/-- Step 1 from sample index `k` and running level `level`: the LevelSequence, or the first width error. -/
def closedLevels (level : Bool) (k : Nat) : List Byte → Except DecError (List Bool)
  | [] => .ok []
  | raw :: s =>
    let w := 2 * raw.toNat
    if w < 120 then .error (.widthTooShort k raw)
    else if w < 230 then (closedLevels (!level) (k + 1) s).map fun l => (!level) :: l
    else if w < 280 then .error (.widthAmbiguous k raw)
    else if w < 400 then (closedLevels (!level) (k + 1) s).map fun l => (!level) :: (!level) :: l
    else .error (.widthTooLong k raw)

/-- The variables of step 3, with the events it logs and whether it stopped on an overflow. -/
structure PairLoop where
  i : Nat
  acc : Byte
  nbits : Nat
  out : List Byte
  faults : Nat
  events : List Event
  overflow : Bool
  deriving DecidableEq, Repr

/-- The variables before step 3. -/
def PairLoop.start : PairLoop :=
  { i := 1, acc := 0, nbits := 0, out := [], faults := 0, events := [], overflow := false }

/-- One iteration of step 3. -/
def PairLoop.consume (maxFrameBytes : Nat) (p : PairLoop) (a b : Bool) : PairLoop :=
  let q := if a != b then { p with acc := shiftIn p.acc a }
    else { p with acc := shiftIn p.acc false, faults := p.faults + 1, events := p.events ++ [.pairFault p.i a] }
  let q := { q with nbits := p.nbits + 1, i := p.i + 2 }
  if q.nbits = 8 then
    if q.out.length = maxFrameBytes then { q with overflow := true }
    else { q with out := q.out ++ [q.acc], acc := 0, nbits := 0 }
  else q

/-- Step 3 over the LevelBits from index 1 on; it ends at an overflow. -/
def closedPairs (maxFrameBytes : Nat) : List Bool → PairLoop → PairLoop
  | a :: b :: l, p =>
    let q := p.consume maxFrameBytes a b
    if q.overflow then q else closedPairs maxFrameBytes l q
  | _, p => p

/-- Steps 4 and 5. -/
def closedVerdict (p : PairLoop) (comp : Bool) : DecResult :=
  if p.overflow then .error (.overflow p.out.length)
  else if p.i % 16 ≠ 1 then .error (.misaligned p.i)
  else if p.out.length < 2 then .error (.frameTooShort p.out.length)
  else
    let n := p.out.length
    let c := crc16 (p.out.take (n - 2))
    let t := beWord (p.out.getD (n - 2) 0) (p.out.getD (n - 1) 0)
    if c ≠ t then .error (.crcMismatch c t) else .frame p.out p.faults comp

/-- Steps 2 to 5 on a LevelSequence. -/
def closedFromLevels (maxFrameBytes : Nat) (l : List Bool) : DecResult × List Event :=
  let comp := decide (l.length % 2 = 0)
  let p := closedPairs maxFrameBytes ((if comp then l ++ [true] else l).drop 1) .start
  (closedVerdict p comp, p.events)

/-- DEC (R160): the outcome and the events logged. -/
def closedDec (maxFrameBytes : Nat) (s : List Byte) : DecResult × List Event :=
  match closedLevels true 0 s with
  | .error e => (.error e, [])
  | .ok l => closedFromLevels maxFrameBytes l

/-! ## ENC (R184) -/

/-- ENC: the wire frame placed in `w_buf[0..q+1]`, or the refusal. -/
def closedEnc (wCap : Nat) (p : List Byte) : Except EncError (List Byte) :=
  if p.length % 2 = 1 then .error (.oddLength p.length)
  else if p.length + 2 > wCap then .error (.tooLong p.length)
  else .ok (wireFrame p)

end Sys2Proof.Machine
end

