-- ==== Sys2Proof/Machine/Handlers.lean ====
section
/-! DEFINITION. The receive and send handlers as "operations in their own right, the way the source's tests call them"
(R222, R108 `RXH`, `TXH`). They have no row in the opcode table; they are sequences of Host operations. -/

namespace Sys2Proof.Machine

/-- `TXH g`: `tx_dgram <- g`, ARB.TXOWNER, ARB.TXFILL, ARB.TXRELEASE, "ending at the first step that leaves the handler". -/
def sendHandler (g : Datagram) (s : State) : Out :=
  Out.andThen (execArbTxowner (({ s with txDgram := g }.goto .txOwner).advance .fresh)) fun t =>
    if t.hphase = .txFill then
      Out.andThen (execArbTxfill t) fun u =>
        if u.hphase = .txRelease then execArbTxrelease u else .next u
    else .next t

/-- `RXH`: ARB.RXSTATUS, ARB.RXTRUNC, ARB.RXCOPY when the checks passed, ARB.RXRELEASE, ARB.RXDECODE when they passed. -/
def receiveHandler (s : State) : Out :=
  Out.andThen (execArbRxstatus ((s.goto .rxStatus).advance .fresh)) fun t =>
    Out.andThen (execArbRxtrunc t) fun u =>
      Out.andThen (if u.hphase = .rxCopy then execArbRxcopy u else .next u) fun v =>
        Out.andThen (execArbRxrelease v) fun w =>
          if w.hphase = .rxDecode then execArbRxdecode w else .next w

end Sys2Proof.Machine
end

