-- ==== Sys2Proof/Safety.lean ====
section
/-! DEFINITION. What a safe run is: the invariants of R36, R70, R220, R221 and R327 over the state, in the terms the
statements use, and the transition tables of R200 and R219. -/

namespace Sys2Proof.Machine

/-! ## Classes of phases -/

/-- Host holds the Receive buffer: between ARB.RXTEST's finding and ARB.RXRELEASE (R221 a). -/
def HPhase.receiving : HPhase → Bool
  | .rxStatus | .rxTrunc | .rxCopy | .rxRelease => true
  | _ => false

/-- Host is in the send handler (R219). -/
def HPhase.sending : HPhase → Bool
  | .txOwner | .txFill | .txRelease => true
  | _ => false

/-- A wake has been recorded in this pass and the socket not yet served (R219). -/
def HPhase.woken : HPhase → Bool
  | .ack | .rxTest | .rxStatus | .rxTrunc | .rxCopy | .rxRelease | .rxDecode | .txDone | .txTest => true
  | _ => false

/-- The pass will still test Receive ownership, or is handling the frame it found (R221 c). -/
def HPhase.beforeRelease : HPhase → Bool
  | .ack | .rxTest | .rxStatus | .rxTrunc | .rxCopy | .rxRelease => true
  | _ => false

/-- The pass will still look for a finished transmit (R221 c). -/
def HPhase.beforeTxDone : HPhase → Bool
  | .ack | .rxTest | .rxStatus | .rxTrunc | .rxCopy | .rxRelease | .rxDecode | .txDone => true
  | _ => false

/-- The phases that may follow a phase of the loop (R219, R223, R224, R201 to R214). -/
def HPhase.next : HPhase → List HPhase
  | .boot => [.arm, .halt]
  | .arm => [.wait]
  | .wait => [.ack]
  | .ack => [.rxTest]
  | .rxTest => [.rxStatus, .txDone]
  | .rxStatus => [.rxTrunc]
  | .rxTrunc => [.rxCopy, .rxRelease]
  | .rxCopy => [.rxRelease]
  | .rxRelease => [.rxDecode, .txDone]
  | .rxDecode => [.txDone]
  | .txDone => [.txTest]
  | .txTest => [.txOwner, .arm]
  | .txOwner => [.txFill, .arm]
  | .txFill => [.txRelease, .arm]
  | .txRelease => [.arm]
  | .halt => []

/-! ## The phase and the owner an operation needs -/

/-- The phase of the Host loop in which the operation is enabled, for the operations that belong to one. -/
def hostPhase : Instr → Option HPhase
  | .arbBoot => some .boot
  | .arbArm => some .arm
  | .arbWait | .arbTick => some .wait
  | .arbAck => some .ack
  | .arbRxtest => some .rxTest
  | .arbRxstatus => some .rxStatus
  | .arbRxtrunc => some .rxTrunc
  | .arbRxcopy => some .rxCopy
  | .arbRxrelease => some .rxRelease
  | .arbRxdecode | .decStart | .dec | .rlyIn _ => some .rxDecode
  | .arbTxdone => some .txDone
  | .arbTxtest => some .txTest
  | .arbTxowner => some .txOwner
  | .arbTxfill | .encCheck _ | .encCrc _ | .encFill _ | .enc _ | .rlyOut _ => some .txFill
  | .arbTxrelease => some .txRelease
  | .decShort _ | .decSingle _ | .decAmbig _ | .decDouble _ | .decLong _ | .decParity => some .rxDecode
  | .decPair1 | .decPair0 | .decPairf00 | .decPairf11 | .decByte | .decOvf => some .rxDecode
  | .decAlign | .decRunt | .decCheck | .decDone => some .rxDecode
  | .crcInit | .crcLoad _ | .crcBit | .crcByte _ | .crc16 _ => none
  | .serLevels _ | .serDur _ | .devRxdone _ _ _ | .devTxdone _ | .devSignal | .netArrive _ _ => none

/-- The phase of the decoder in which the operation is enabled, for the operations that belong to one. -/
def decoderPhase : Instr → Option DPhase
  | .decStart | .dec | .arbRxdecode | .rlyIn _ => some .idle
  | .decShort _ | .decSingle _ | .decAmbig _ | .decDouble _ | .decLong _ => some .classify
  | .decParity => some .parity
  | .decPair1 | .decPair0 | .decPairf00 | .decPairf11 | .decByte | .decOvf => some .pair
  | .decAlign => some .align
  | .decRunt | .decCheck => some .check
  | .decDone => some .done
  | .crcInit | .crcLoad _ | .crcBit | .crcByte _ | .crc16 _ => none
  | .encCheck _ | .encCrc _ | .encFill _ | .enc _ | .serLevels _ | .serDur _ | .rlyOut _ => none
  | .arbBoot | .arbArm | .arbWait | .arbTick | .arbAck | .arbRxtest | .arbRxstatus | .arbRxtrunc => none
  | .arbRxcopy | .arbRxrelease | .arbTxdone | .arbTxtest | .arbTxowner | .arbTxfill | .arbTxrelease => none
  | .devRxdone _ _ _ | .devTxdone _ | .devSignal | .netArrive _ _ => none

/-- The phase of the CRC unit in which the operation is enabled: the family's own (R120 to R124), and `C_IDLE` for an
operation that runs a CRC16 of its own or that leaves the place where one may go on (R326). -/
def crcPhase : Instr → Option CPhase
  | .crcInit | .crc16 _ => some .idle
  | .crcLoad _ | .crcByte _ => some .load
  | .crcBit => some .bit
  | .decCheck | .dec | .arbRxdecode | .encCrc _ | .enc _ | .arbTxfill | .arbBoot => some .idle
  | .decStart | .decShort _ | .decSingle _ | .decAmbig _ | .decDouble _ | .decLong _ | .decParity => none
  | .decPair1 | .decPair0 | .decPairf00 | .decPairf11 | .decByte | .decOvf => none
  | .decAlign | .decRunt | .decDone | .encCheck _ | .encFill _ | .serLevels _ | .serDur _ | .rlyIn _ | .rlyOut _ => none
  | .arbArm | .arbWait | .arbTick | .arbAck | .arbRxtest | .arbRxstatus | .arbRxtrunc | .arbRxcopy => none
  | .arbRxrelease | .arbTxdone | .arbTxtest | .arbTxowner | .arbTxrelease => none
  | .devRxdone _ _ _ | .devTxdone _ | .devSignal | .netArrive _ _ => none

/-- The operation is of the CRC family. -/
def inCrcFamily : Instr → Bool
  | .crcInit | .crcLoad _ | .crcBit | .crcByte _ | .crc16 _ => true
  | _ => false

/-- How far the parts of the phase's operation must have come for a part to be next (R141, R181 to R183, R250, R251). -/
def partAfter : Instr → Option Progress
  | .decStart | .dec | .rlyOut _ => some .fresh
  | .rlyIn _ => some .decoding
  | .encCheck _ | .enc _ => some .unframed
  | .encCrc _ => some .admitted
  | .encFill _ => some .summed
  | _ => none

/-- The agent whose step the operation is (R20, the table's `agent`); SER stands for the Device's serialiser (R185). -/
inductive Agent where
  | host
  | device
  | network
  deriving DecidableEq, Repr

/-- The agent of an operation. -/
def agentOf : Instr → Agent
  | .serLevels _ | .serDur _ | .devRxdone _ _ _ | .devTxdone _ | .devSignal => .device
  | .netArrive _ _ => .network
  | _ => .host

/-- The operation touches the Receive buffer beyond its owner field (R205 to R208). -/
def touchesReceive : Instr → Bool
  | .arbRxstatus | .arbRxtrunc | .arbRxcopy | .arbRxrelease => true
  | _ => false

/-- The operation stores to the Transmit buffer or hands it off (R183, R214), whatever its operands. -/
def touchesTransmit : Instr → Bool
  | .encFill _ | .arbTxrelease => true
  | _ => false

/-- The operation writes the Transmit payload (R221 a). -/
def fillsTransmit : Instr → Bool
  | .arbTxfill | .enc _ | .encFill _ => true
  | _ => false

/-- The operation stores a received frame. -/
def fillsReceive : Instr → Bool
  | .devRxdone _ _ _ => true
  | _ => false

/-- The operation returns the Transmit buffer to Host. -/
def returnsTransmit : Instr → Bool
  | .devTxdone _ => true
  | _ => false

/-! ## What a payload space holds -/

/-- The space holds the sequence from index 0 on. -/
def Memory.holds {α : Type} (m : Memory α) (xs : List α) : Prop := ∀ j, j < xs.length → Memory.read m j = xs[j]?

/-- `m'` reads as the sequence from index `a` on, and as `m` at every other index: what a store of the sequence leaves. -/
def Memory.stored {α : Type} (m m' : Memory α) (a : Nat) (xs : List α) : Prop :=
  ∀ j, Memory.read m' j = if a ≤ j ∧ j < a + xs.length then xs[j - a]? else Memory.read m j

/-- Where an operation of the CRC family is taken: before the loop (P6), at DEC.CHECK and at ENC.CRC (R128; log
entry 25). -/
def CrcTurn (s : State) : Prop :=
  s.hphase = .boot ∨ (s.hphase = .rxDecode ∧ s.dec.phase = .check ∧ 2 ≤ s.dec.outLen) ∨
    (s.hphase = .txFill ∧ s.progress = .admitted)

/-- A source is ready (R201). -/
def SourceReady (s : State) : Prop := s.irqPending = true ∨ (s.sockRegistered = true ∧ s.netIn ≠ [])

/-- DEC may start on the DurationSequence `xs`: Host has just entered ARB.RXDECODE's phase, the decoder and the CRC unit
are free, and the private copy holds `xs` (R140, R209). -/
structure ReadyToDecode (s : State) (xs : List Byte) : Prop where
  hphase : s.hphase = .rxDecode
  fresh : s.progress = .fresh
  idle : s.dec.phase = .idle
  free : s.crc.phase = .idle
  copied : s.rxLen = xs.length ∧ s.rxLen ≤ s.cfg.rCap ∧ Memory.holds s.rxCopy xs
  capacity : 2 * s.cfg.rCap + 1 ≤ s.cfg.lCap

/-! ## Invariants -/

/-- The first `n` elements of a space hold values. -/
def Memory.written {α : Type} (m : Memory α) (n : Nat) : Prop := ∀ j, j < n → ∃ v, Memory.read m j = some v

/-- Every payload space is in canonical form. -/
structure MemoriesCanonical (s : State) : Prop where
  rbuf : Memory.wf s.rbuf = true
  wbuf : Memory.wf s.wbuf = true
  rxCopy : Memory.wf s.rxCopy = true
  levels : Memory.wf s.dec.levels = true
  out : Memory.wf s.dec.out = true

/-- The three fields "nobody writes" (R28, R70). -/
structure FieldsFixed (s : State) : Prop where
  rMaxLength : s.ifb.rMaxLength = BitVec.ofNat 32 s.cfg.rCap
  rBufAddr : s.ifb.rBufAddr = s.cfg.rBufBase
  wBufAddr : s.ifb.wBufAddr = s.cfg.wBufBase

/-- Host touches a buffer only while it owns it, and takes a datagram only when it may (R221 a, b). -/
structure OwnershipSafe (s : State) : Prop where
  receiving : s.hphase.receiving = true → s.ifb.rOwner = .host
  waiting : s.hphase = .wait → s.sockRegistered = true → s.ifb.wOwner = .host
  woken : s.hphase.woken = true → s.wokeSock = true → s.ifb.wOwner = .host ∧ s.netIn ≠ []
  sending : s.hphase.sending = true → s.ifb.wOwner = .host

/-- At most one frame is in flight toward the Device, and it is known to be outstanding (R220, R221 d). -/
structure OneInFlight (s : State) : Prop where
  outstanding : s.ifb.wOwner = .device → s.txOutstanding = true
  examined : s.hphase = .txTest → s.wokeSock = true → s.txOutstanding = false
  sending : s.hphase.sending = true → s.txOutstanding = false

/-- Every flip to Host is seen by this pass or still announced (R221 c). -/
structure NoLostWakeup (s : State) : Prop where
  receive : s.ifb.rOwner = .host →
    s.devSigOwed = true ∨ s.irqPending = true ∨ s.hphase.beforeRelease = true
  transmit : s.ifb.wOwner = .host → s.txOutstanding = true →
    s.devSigOwed = true ∨ s.irqPending = true ∨ s.hphase.beforeTxDone = true

/-- The Transmit buffer holds a whole frame as ENC builds it: the payload, an even number of bytes, its checksum behind it,
and the count of both (R29, R96, R181, R183). -/
def TransmitHolds (s : State) (p : List Byte) : Prop :=
  p.length % 2 = 0 ∧ p.length + 2 ≤ s.cfg.wCap ∧ Memory.holds s.wbuf (wireFrame p) ∧
    s.ifb.wLength = BitVec.ofNat 32 (p.length + 2)

/-- The party that reads a payload finds it written (R38, R327): the Receive payload while Host owns it, the private copy
from ARB.RXCOPY until the decode ends, the Transmit frame from ARB.TXFILL until the Device returns the buffer (R35). -/
structure PayloadsWritten (s : State) : Prop where
  received : s.ifb.rOwner = .host →
    s.ifb.rReceivedLength ≤ s.ifb.rMaxLength ∧ Memory.written s.rbuf s.ifb.rReceivedLength.toNat
  copied : (s.hphase = .rxRelease ∧ s.rxValid = true) ∨ s.hphase = .rxDecode →
    s.rxLen ≤ s.cfg.rCap ∧ Memory.written s.rxCopy s.rxLen
  sent : s.ifb.wOwner = .device ∨ s.hphase = .txRelease → ∃ p, TransmitHolds s p

/-- The decoder between its operations (R141 to R159): it runs only inside ARB.RXDECODE, its counters stay in the ranges
of R23, and what it will read it has written. -/
structure DecoderSound (s : State) : Prop where
  inside : s.dec.phase ≠ .idle → s.hphase = .rxDecode
  levels : s.dec.phase ≠ .idle → Memory.written s.dec.levels s.dec.lLen
  fresh : s.dec.phase = .classify ∨ s.dec.phase = .parity → s.dec.i = 1 ∧ s.dec.nbits = 0 ∧ s.dec.outLen = 0
  classify : s.dec.phase = .classify → s.dec.k < s.rxLen ∧ s.dec.lLen ≤ 2 * s.dec.k
  parity : s.dec.phase = .parity → s.dec.lLen ≤ 2 * s.rxLen
  paired : s.dec.phase = .pair ∨ s.dec.phase = .align ∨ s.dec.phase = .check ∨ s.dec.phase = .done →
    s.dec.lLen % 2 = 1 ∧ s.dec.lLen ≤ 2 * s.rxLen + 1 ∧ s.dec.i % 2 = 1 ∧ s.dec.i ≤ s.dec.lLen ∧
      s.dec.nbits ≤ 8 ∧ s.dec.outLen ≤ s.cfg.maxFrameBytes ∧ Memory.written s.dec.out s.dec.outLen
  pair : s.dec.phase = .pair → s.dec.nbits = 8 ∨ s.dec.i + 1 < s.dec.lLen

/-- The parts of the phase's operation are taken in their order, each register written before a later part reads it (R37,
R38, R314), and a CRC16 goes on only where it has its turn (R326). -/
structure PartsSound (s : State) : Prop where
  receive : s.progress = .decoding ∨ s.progress = .relayed → s.hphase = .rxDecode
  decode : s.dec.phase ≠ .idle → s.progress = .decoding
  relayed : s.progress = .relayed → ∃ f n c, s.dec.result = .frame f n c
  send : s.progress = .unframed ∨ s.progress = .admitted ∨ s.progress = .summed ∨ s.progress = .ended →
    s.hphase = .txFill
  payload : s.progress = .unframed ∨ s.progress = .admitted ∨ s.progress = .summed → ∃ p, txPayload s = some p ∧
    (s.progress ≠ .unframed → s.enc.len = p.length ∧ p.length % 2 = 0 ∧ p.length + 2 ≤ s.cfg.wCap) ∧
    (s.progress = .summed → s.enc.crc = crc16 p)
  crcTurn : s.crc.phase ≠ .idle → CrcTurn s

/-- Everything together, under parameters that U2 allows. -/
structure Inv (s : State) : Prop where
  config : s.cfg.valid = true
  memories : MemoriesCanonical s
  fields : FieldsFixed s
  ownership : OwnershipSafe s
  inFlight : OneInFlight s
  wakeup : NoLostWakeup s
  payloads : PayloadsWritten s
  decoder : DecoderSound s
  parts : PartsSound s
  crcUnit : s.crc.phase = .bit → s.crc.cnt < 8

end Sys2Proof.Machine
end

