-- ==== Sys2Proof/Certificates/Slice0/Obligations.lean ====
section
/-! DEFINITION. The statements for the provers. A next state is written out as the old state with the fields the rule
changes, so each statement is also the frame of its operation: every field not named is unchanged. -/

open Sys2Proof Sys2Proof.Machine

/-! ## Reset -/

/-- R37, R310 to R312: what the state is after reset, and that a reset request in the trace leads there from any state.
The owners are the source's values, the others this spec's (D27, D28); the defaults of `MAX_FRAME_BYTES` and `R_CAP` are
R9's (D5). The model's own choices: that the byte `0xFF` stands for `rst` in a trace and what it resets (log entries 1
and 18), and that `State.reset` has `boot_ok` 1 (log entry 5). -/
def Obligations.ResetLeavesTheSpecifiedState : Prop :=
  (∀ cfg b f, ∃ s, State.resetFor cfg b f = s ∧
    s.ifb.rOwner = .device ∧ s.ifb.wOwner = .host ∧ s.ifb.rMaxLength = BitVec.ofNat 32 cfg.rCap ∧
    s.ifb.rReceivedLength = 0 ∧ s.ifb.wLength = 0 ∧ s.ifb.rTruncated = false ∧
    s.ifb.rStatus = 0x0000 ∧ s.ifb.wStatus = 0x0000 ∧
    (∀ j, Memory.read s.rbuf j = none ∧ Memory.read s.wbuf j = none ∧ Memory.read s.rxCopy j = none) ∧
    (∀ j, Memory.read s.dec.levels j = none ∧ Memory.read s.dec.out j = none) ∧
    s.irqPending = false ∧ s.kickPending = false ∧ s.devSigOwed = false ∧
    s.rxValid = false ∧ s.txOutstanding = false ∧ s.sockRegistered = false ∧ s.wokeIrq = false ∧ s.wokeSock = false ∧
    s.rxLen = 0 ∧ s.txDgram = [] ∧ s.netIn = [] ∧ s.netOut = [] ∧ s.log = [] ∧
    s.hphase = .boot ∧ s.dec.phase = .idle ∧ s.crc.phase = .idle) ∧
  (State.reset.cfg.maxFrameBytes = 564 ∧ State.reset.cfg.rCap = 12288 ∧ State.reset.bootOk = true) ∧
  ∀ s b r, s.feed = 0xFF :: (if b then 1 else 0) :: r → step s = .next (State.resetFor s.cfg b r)

/-! ## CRC unit -/

/-- R120, R121, R122: CRC.INIT, CRC.LOAD and CRC.BIT, each in its phase of the unit and in no other. The feedback is bit 15
of the registers before the shift. In which phases of the Host loop the family has its turn is the model's choice (log
entry 25). -/
def Obligations.CrcPrimitives : Prop :=
  (∀ s : State, ¬(CrcTurn s ∧ s.crc.phase = .idle) → exec .crcInit s = .refused (.notEnabled "CRC.INIT")) ∧
  (∀ (s : State) b, ¬(CrcTurn s ∧ s.crc.phase = .load) → exec (.crcLoad b) s = .refused (.notEnabled "CRC.LOAD")) ∧
  (∀ s : State, ¬(CrcTurn s ∧ s.crc.phase = .bit ∧ s.crc.cnt < 8) →
    exec .crcBit s = .refused (.notEnabled "CRC.BIT")) ∧
  ∀ s : State, CrcTurn s →
    (s.crc.phase = .idle → exec .crcInit s = .next { s with crc := { s.crc with reg := 0x8005, phase := .load } }) ∧
    (∀ b, s.crc.phase = .load →
      exec (.crcLoad b) s = .next { s with crc := { s.crc with data := b ++ (0 : Byte), cnt := 0, phase := .bit } }) ∧
    (s.crc.phase = .bit → s.crc.cnt < 8 →
      exec .crcBit s = .next { s with crc := {
        reg := if s.crc.reg.getLsbD 15 ≠ s.crc.data.getLsbD 15 then (s.crc.reg <<< 1) ^^^ 0x8005 else s.crc.reg <<< 1
        data := s.crc.data <<< 1
        cnt := s.crc.cnt + 1
        phase := if s.crc.cnt + 1 = 8 then .load else .bit } })

/-- R123, R124: CRC.BYTE and CRC16 leave in `crc_reg` what their closed forms compute, from any register contents. Where in
the Host loop they have their turn is the model's choice (log entry 25). -/
def Obligations.CrcCompositesFollowTheirClosedForms : Prop :=
  (∀ (s : State) b, CrcTurn s → s.crc.phase = .load →
    exec (.crcByte b) s = .next { s with crc := { reg := crcByte s.crc.reg b, data := 0, cnt := 8, phase := .load } }) ∧
  ∀ (s : State) bs, CrcTurn s → s.crc.phase = .idle → exec (.crc16 bs) s = .next { s with crc := {
    reg := crc16 bs
    data := if bs = [] then s.crc.data else 0
    cnt := if bs = [] then s.crc.cnt else 8
    phase := .idle } }

/-- R126: the checksum of a sequence followed by its own checksum is zero, whatever its length. -/
def Obligations.CrcResidueIsZero : Prop :=
  ∀ (s : State) (p : List Byte), CrcTurn s → s.crc.phase = .idle →
    ∃ c, exec (.crc16 (p ++ [hi (crc16 p), lo (crc16 p)])) s = .next { s with crc := c } ∧ c.reg = 0

/-- R127: the initial value stands for one leading bit of value 1 before the bits of the frame, most significant first. -/
def Obligations.CrcInitialValueIsASyncBit : Prop :=
  ∀ p : List Byte,
    crc16 p = (true :: p.flatMap bitsMsbFirst).foldl (fun r v => crcIterate 1 r (if v then 0x8000 else 0)) 0

/-! ## Timing decoder

The decoder runs inside ARB.RXDECODE only, and once for a frame (log entries 7 and 26). -/

/-- R141: DEC.START. That `width_ns` and `dec_result` keep their values, where R37's table says that DEC.START writes them,
follows R141's pseudocode (log entry 22, DEDUCED); the field `progress` is the model's own (log entry 26). -/
def Obligations.DecodeStarts : Prop :=
  ∀ s : State, s.hphase = .rxDecode → s.dec.phase = .idle → s.progress = .fresh →
    exec .decStart s = .next { s with progress := .decoding, dec := { s.dec with
      level := true, lLen := 0, k := 0, i := 1, acc := 0, nbits := 0, outLen := 0, pairFaults := 0, comp := false
      phase := if s.rxLen = 0 then .parity else .classify } }

/-- R92 and R94: which operation the value of the sample, or the pattern of the pair, selects. -/
def Obligations.DataSelectsTheOperation : Prop :=
  (∀ (s : State) raw, s.dec.phase = .classify → s.dec.k < s.cfg.rCap → Memory.read s.rxCopy s.dec.k = some raw →
    decOp s = .ok (if raw.toNat < 60 then .decShort raw else if raw.toNat < 115 then .decSingle raw
      else if raw.toNat < 140 then .decAmbig raw else if raw.toNat < 200 then .decDouble raw else .decLong raw)) ∧
  (∀ (s : State) a b, s.dec.phase = .pair → s.dec.nbits < 8 → s.dec.i + 1 < s.cfg.lCap →
    Memory.read s.dec.levels s.dec.i = some a → Memory.read s.dec.levels (s.dec.i + 1) = some b →
    decOp s = .ok (if a = b then (if a then .decPairf11 else .decPairf00) else if a then .decPair1 else .decPair0))

/-- R143, R145, R147: a sample outside the two windows ends the decode with its own error, the index and the sample. -/
def Obligations.IllegalSamplesRaise : Prop :=
  ∀ (s : State) raw, s.hphase = .rxDecode → s.dec.phase = .classify → s.dec.k < s.rxLen → s.dec.k < s.cfg.rCap →
    Memory.read s.rxCopy s.dec.k = some raw →
    (raw.toNat ≤ 59 → exec (.decShort raw) s = .next { s with dec := { s.dec with
      widthNs := BitVec.ofNat 9 (2 * raw.toNat), result := .error (.widthTooShort s.dec.k raw), phase := .idle } }) ∧
    (115 ≤ raw.toNat → raw.toNat ≤ 139 → exec (.decAmbig raw) s = .next { s with dec := { s.dec with
      widthNs := BitVec.ofNat 9 (2 * raw.toNat), result := .error (.widthAmbiguous s.dec.k raw), phase := .idle } }) ∧
    (200 ≤ raw.toNat → exec (.decLong raw) s = .next { s with dec := { s.dec with
      widthNs := BitVec.ofNat 9 (2 * raw.toNat), result := .error (.widthTooLong s.dec.k raw), phase := .idle } })

/-- R144, R146: a single appends the toggled level once, a double twice. -/
def Obligations.LegalSamplesAppendLevels : Prop :=
  ∀ (s : State) raw, s.hphase = .rxDecode → s.dec.phase = .classify → s.dec.k < s.rxLen → s.dec.k < s.cfg.rCap →
    Memory.read s.rxCopy s.dec.k = some raw →
    (60 ≤ raw.toNat → raw.toNat ≤ 114 → s.dec.lLen + 1 ≤ s.cfg.lCap → ∃ l,
      Memory.stored s.dec.levels l s.dec.lLen [!s.dec.level] ∧
      exec (.decSingle raw) s = .next { s with dec := { s.dec with
        widthNs := BitVec.ofNat 9 (2 * raw.toNat), level := !s.dec.level, levels := l, lLen := s.dec.lLen + 1
        k := s.dec.k + 1, phase := if s.dec.k + 1 = s.rxLen then .parity else .classify } }) ∧
    (140 ≤ raw.toNat → raw.toNat ≤ 199 → s.dec.lLen + 2 ≤ s.cfg.lCap → ∃ l,
      Memory.stored s.dec.levels l s.dec.lLen [!s.dec.level, !s.dec.level] ∧
      exec (.decDouble raw) s = .next { s with dec := { s.dec with
        widthNs := BitVec.ofNat 9 (2 * raw.toNat), level := !s.dec.level, levels := l, lLen := s.dec.lLen + 2
        k := s.dec.k + 1, phase := if s.dec.k + 1 = s.rxLen then .parity else .classify } })

/-- R149: DEC.PARITY, and that a LevelSequence of even length decodes like the same with one more trailing 1. -/
def Obligations.ParityIsRestored : Prop :=
  (∀ s : State, s.hphase = .rxDecode → s.dec.phase = .parity →
    (s.dec.lLen % 2 = 0 → s.dec.lLen + 1 ≤ s.cfg.lCap → ∃ l,
      Memory.stored s.dec.levels l s.dec.lLen [true] ∧
      exec .decParity s = .next { s with dec := { s.dec with
        levels := l, lLen := s.dec.lLen + 1, comp := true
        phase := if s.dec.nbits = 8 ∨ s.dec.i + 1 < s.dec.lLen + 1 then .pair else .align } }) ∧
    (s.dec.lLen % 2 = 1 →
      exec .decParity s = .next { s with dec := { s.dec with
        phase := if s.dec.nbits = 8 ∨ s.dec.i + 1 < s.dec.lLen then .pair else .align } })) ∧
  ∀ n (l : List Bool), l.length % 2 = 0 →
    (closedFromLevels n l).2 = (closedFromLevels n (l ++ [true])).2 ∧
    (∀ e, (closedFromLevels n l).1 = .error e → (closedFromLevels n (l ++ [true])).1 = .error e) ∧
    ∀ f k c, (closedFromLevels n l).1 = .frame f k c →
      c = true ∧ (closedFromLevels n (l ++ [true])).1 = .frame f k false

/-- R150, R151, R152: a valid pair shifts its first half in; an invalid one is logged, counted and decoded as 0. -/
def Obligations.PairsBecomeBits : Prop :=
  ∀ (s : State) a b, s.hphase = .rxDecode → s.dec.phase = .pair → s.dec.nbits < 8 → s.dec.i + 1 < s.dec.lLen →
    s.dec.lLen ≤ s.cfg.lCap → Memory.read s.dec.levels s.dec.i = some a → Memory.read s.dec.levels (s.dec.i + 1) = some b →
    (a = true → b = false → exec .decPair1 s = .next { s with dec := { s.dec with
      acc := (s.dec.acc <<< 1) ||| 1, nbits := s.dec.nbits + 1, i := s.dec.i + 2
      phase := if s.dec.nbits + 1 = 8 ∨ s.dec.i + 3 < s.dec.lLen then .pair else .align } }) ∧
    (a = false → b = true → exec .decPair0 s = .next { s with dec := { s.dec with
      acc := s.dec.acc <<< 1, nbits := s.dec.nbits + 1, i := s.dec.i + 2
      phase := if s.dec.nbits + 1 = 8 ∨ s.dec.i + 3 < s.dec.lLen then .pair else .align } }) ∧
    (a = b → exec (if a then .decPairf11 else .decPairf00) s = .next { s with
      log := s.log ++ [.pairFault s.dec.i a]
      dec := { s.dec with
        pairFaults := s.dec.pairFaults + 1
        acc := s.dec.acc <<< 1, nbits := s.dec.nbits + 1, i := s.dec.i + 2
        phase := if s.dec.nbits + 1 = 8 ∨ s.dec.i + 3 < s.dec.lLen then .pair else .align } })

/-- R153: DEC.BYTE. -/
def Obligations.EighthBitClosesAByte : Prop :=
  ∀ s : State, s.hphase = .rxDecode → s.dec.phase = .pair → s.dec.nbits = 8 →
    s.dec.outLen < s.cfg.maxFrameBytes → ∃ o,
    Memory.stored s.dec.out o s.dec.outLen [s.dec.acc] ∧
    exec .decByte s = .next { s with dec := { s.dec with
      out := o, outLen := s.dec.outLen + 1, acc := 0, nbits := 0
      phase := if s.dec.i + 1 < s.dec.lLen then .pair else .align } }

/-- R154, R156, R157: DEC.OVF, DEC.ALIGN and DEC.RUNT. -/
def Obligations.OverflowAlignmentAndLength : Prop :=
  ∀ s : State, s.hphase = .rxDecode →
    (s.dec.phase = .pair → s.dec.nbits = 8 → s.dec.outLen = s.cfg.maxFrameBytes →
      exec .decOvf s = .next { s with dec := { s.dec with result := .error (.overflow s.dec.outLen), phase := .idle } }) ∧
    (s.dec.phase = .align → s.dec.i % 16 = 1 →
      exec .decAlign s = .next { s with dec := { s.dec with phase := .check } }) ∧
    (s.dec.phase = .align → s.dec.i % 16 ≠ 1 →
      exec .decAlign s = .next { s with dec := { s.dec with result := .error (.misaligned s.dec.i), phase := .idle } }) ∧
    (s.dec.phase = .check → s.dec.outLen < 2 →
      exec .decRunt s = .next
        { s with dec := { s.dec with result := .error (.frameTooShort s.dec.outLen), phase := .idle } })

/-- R158: DEC.CHECK on the output bytes `p`, `h`, `l`: the checksum of `p` against the big-endian word of `h` and `l`. -/
def Obligations.ChecksumDecides : Prop :=
  ∀ (s : State) (p : List Byte) (h l : Byte), s.hphase = .rxDecode → s.dec.phase = .check → s.crc.phase = .idle →
    s.dec.outLen = p.length + 2 → s.dec.outLen ≤ s.cfg.maxFrameBytes → Memory.holds s.dec.out (p ++ [h, l]) →
    ∃ c : CrcUnit, c.reg = crc16 p ∧ c.phase = .idle ∧
      (crc16 p = h ++ l → exec .decCheck s = .next { s with crc := c, dec := { s.dec with phase := .done } }) ∧
      (crc16 p ≠ h ++ l → exec .decCheck s = .next { s with
        crc := c, dec := { s.dec with result := .error (.crcMismatch (crc16 p) (h ++ l)), phase := .idle } })

/-- R159: DEC.DONE. -/
def Obligations.DoneReturnsTheWholeFrame : Prop :=
  ∀ (s : State) bs, s.hphase = .rxDecode → s.dec.phase = .done → s.dec.outLen = bs.length →
    s.dec.outLen ≤ s.cfg.maxFrameBytes → Memory.holds s.dec.out bs →
    exec .decDone s = .next
      { s with dec := { s.dec with result := .frame bs s.dec.pairFaults s.dec.comp, phase := .idle } }

/-- R160: DEC by its primitives gives, on every DurationSequence, the outcome and the events of the closed form, and
writes nothing but the decoder, the CRC unit, the log and the model's own `progress`. The closed form is a function of the sequence and
`MAX_FRAME_BYTES` (R140), so no earlier frame shows. -/
def Obligations.DecodeIsItsClosedForm : Prop :=
  ∀ (s : State) xs, ReadyToDecode s xs → ∃ d c,
    exec .dec s = .next { s with
      dec := d, crc := c, progress := .decoding, log := s.log ++ (closedDec s.cfg.maxFrameBytes xs).2 } ∧
    d.result = (closedDec s.cfg.maxFrameBytes xs).1 ∧ d.phase = .idle ∧ c.phase = .idle

/-- R161 c: a DurationSequence whose consumed length is not 1 modulo 16 is an error, never a frame. -/
def Obligations.MisalignedSequencesAreRejected : Prop :=
  ∀ (s t : State) xs l, ReadyToDecode s xs → closedLevels true 0 xs = .ok l →
    (if l.length % 2 = 0 then l.length + 1 else l.length) % 16 ≠ 1 →
    exec .dec s = .next t → ∃ e, t.dec.result = .error e

/-- R36 (4), R96, R209, R250: whatever the samples, what ARB.RXDECODE broadcasts is the payload of a frame of whole words
whose checksum is right, behind its word count; at most one datagram leaves. -/
def Obligations.OnlySoundFramesAreRelayed : Prop :=
  ∀ (s t : State) xs, ReadyToDecode s xs → exec .arbRxdecode s = .next t →
    t.netOut = s.netOut ∨ ∃ p n c, t.dec.result = .frame (wireFrame p) n c ∧ p.length % 2 = 0 ∧
      p.length + 2 ≤ s.cfg.maxFrameBytes ∧
      t.netOut = s.netOut ++ [BitVec.ofNat 8 (p.length / 2 / 256) :: BitVec.ofNat 8 (p.length / 2) :: p]

/-- R187: the durations of an encoded frame decode to that frame, with no fault; the synthetic LevelBit is used exactly
when the frame's last bit is 0. Any serialiser widths inside the decoder's windows do (R186). -/
def Obligations.EncodedFramesDecode : Prop :=
  ∀ (s : State) (p : List Byte), p.length % 2 = 0 → p.length + 2 ≤ min s.cfg.wCap s.cfg.maxFrameBytes →
    60 ≤ s.cfg.tHalfRaw.toNat → s.cfg.tHalfRaw.toNat ≤ 114 → 140 ≤ s.cfg.tFullRaw.toNat → s.cfg.tFullRaw.toNat ≤ 199 →
    ReadyToDecode s (serialDurations s.cfg (serialLevels (wireFrame p))) →
    ∃ d c, exec .dec s = .next { s with dec := d, crc := c, progress := .decoding } ∧
      d.result = .frame (wireFrame p) 0 (!(crc16 p).getLsbD 0)

/-! ## Encoder and reference serialiser -/

/-- R181: ENC.CHECK, on the payload RLY.OUT returned; the odd test comes first. That the outcome is kept in `result`, and
`progress` itself, are the model's conventions (log entries 9 and 26). -/
def Obligations.EncoderAdmitsOrRefuses : Prop :=
  ∀ (s : State) h l p, s.hphase = .txFill → s.progress = .unframed → s.txDgram = h :: l :: p →
    (p.length % 2 = 1 → exec (.encCheck p.length) s = .next
      { s with result := .encError (.oddLength p.length), progress := .ended }) ∧
    (p.length % 2 = 0 → s.cfg.wCap < p.length + 2 → exec (.encCheck p.length) s = .next
      { s with result := .encError (.tooLong p.length), progress := .ended }) ∧
    (p.length % 2 = 0 → p.length + 2 ≤ s.cfg.wCap → exec (.encCheck p.length) s = .next
      { s with enc := { s.enc with len := p.length }, result := .encOk, progress := .admitted })

/-- R182: ENC.CRC, after ENC.CHECK and not otherwise; that `progress` keeps the order is the model's choice (log entries 8
and 26). -/
def Obligations.EncoderComputesTheChecksum : Prop :=
  (∀ (s : State) h l p, s.hphase = .txFill → s.progress = .admitted → s.txDgram = h :: l :: p →
    s.enc.len = p.length → s.crc.phase = .idle → ∃ c : CrcUnit, c.reg = crc16 p ∧ c.phase = .idle ∧
      exec (.encCrc p) s = .next { s with crc := c, enc := { s.enc with crc := crc16 p }, progress := .summed }) ∧
  ∀ (s : State) p, s.progress ≠ .admitted → exec (.encCrc p) s = .refused (.notEnabled "ENC.CRC")

/-- R183: ENC.FILL, after ENC.CRC and not otherwise; every byte of `w_buf` from `w_length` on keeps what it held. That
`progress` keeps the order is the model's choice (log entries 8 and 26). -/
def Obligations.EncoderFillsTheBuffer : Prop :=
  (∀ (s : State) h l p, s.hphase = .txFill → s.progress = .summed → s.txDgram = h :: l :: p →
    s.enc.len = p.length → p.length + 2 ≤ s.cfg.wCap → s.ifb.wOwner = .host → ∃ m,
      Memory.stored s.wbuf m 0 (p ++ [s.enc.crc.extractLsb' 8 8, s.enc.crc.extractLsb' 0 8]) ∧
      exec (.encFill p) s = .next { s with
        wbuf := m, ifb := { s.ifb with wLength := BitVec.ofNat 32 (p.length + 2) }, progress := .ended }) ∧
  ∀ (s : State) p, s.progress ≠ .summed → exec (.encFill p) s = .refused (.notEnabled "ENC.FILL")

/-- R180, R184: ENC, on the payload RLY.OUT returned, is its closed form: a refusal (D10) leaves the Transmit buffer
untouched, an admitted payload is placed with its checksum. That ENC taken on its own keeps its return in `result` and
logs nothing is the model's choice (log entry 9), `progress` its own field (log entry 26). -/
def Obligations.EncodePlacesTheWireFrame : Prop :=
  ∀ (s : State) h l p, s.hphase = .txFill → s.progress = .unframed → s.txDgram = h :: l :: p → s.crc.phase = .idle →
    (∀ e, closedEnc s.cfg.wCap p = .error e →
      exec (.enc p) s = .next { s with result := .encError e, progress := .ended }) ∧
    (∀ w, closedEnc s.cfg.wCap p = .ok w → s.ifb.wOwner = .host → ∃ m c,
      Memory.stored s.wbuf m 0 w ∧ c.reg = crc16 p ∧ c.phase = .idle ∧
      exec (.enc p) s = .next { s with
        wbuf := m, crc := c, enc := { len := p.length, crc := crc16 p }
        ifb := { s.ifb with wLength := BitVec.ofNat 32 w.length }, result := .encOk, progress := .ended })

/-- R185: the half-bit levels of a wire frame, position by position. That the operation's return stands in the field
`result` is the model's choice (log entry 9). -/
def Obligations.SerialLevelsAreManchester : Prop :=
  ∀ (s : State) (w : List Byte), ∃ h, exec (.serLevels w) s = .next { s with result := .levels h } ∧
    h.length = 16 * w.length + 2 ∧ h[0]? = some true ∧ h[1]? = some false ∧
    ∀ j t (b : Byte), w[j]? = some b → t < 8 →
      h[2 + 16 * j + 2 * t]? = some (b.getLsbD (7 - t)) ∧ h[3 + 16 * j + 2 * t]? = some (!b.getLsbD (7 - t))

/-- R186: one sample for each maximal run of `H[1..]`, but none for a final run of level 1. Three or more equal levels in
a row, which no wire frame gives, count as the full width (R186's pseudocode; log entry 16). That the operation's return
stands in the field `result` is the model's choice (log entry 9). -/
def Obligations.SerialDurationsAreRuns : Prop :=
  ∀ (s : State) (h : List Bool) (rs : List (Bool × Nat)),
    (∀ j (r q : Bool × Nat), rs[j]? = some r → rs[j + 1]? = some q → q.1 = !r.1) → (∀ r ∈ rs, 1 ≤ r.2) →
    h.drop 1 = rs.flatMap (fun r => List.replicate r.2 r.1) →
    ∃ d, exec (.serDur h) s = .next { s with result := .durations d } ∧
      d = (if rs.getLast?.map Prod.fst = some true then rs.dropLast else rs).map
        fun r => if r.2 = 1 then s.cfg.tHalfRaw else s.cfg.tFullRaw

/-! ## Host sequencer -/

/-- R223, R224, R202: ARB.BOOT, ARB.ARM and ARB.TICK. That a tick may come whenever no source is ready is R202's untimed model.
That a CRC16 begun before the loop keeps ARB.BOOT waiting is the model's choice (log entry 25). -/
def Obligations.BootArmAndTick : Prop :=
  ∀ s : State,
    (s.hphase = .boot → s.crc.phase = .idle → s.bootOk = true → exec .arbBoot s = .next { s with hphase := .arm }) ∧
    (s.hphase = .boot → s.crc.phase = .idle → s.bootOk = false →
      exec .arbBoot s = .next { s with log := s.log ++ [.fatalStartup], hphase := .halt }) ∧
    (s.hphase = .arm →
      exec .arbArm s = .next { s with sockRegistered := decide (s.ifb.wOwner = .host), hphase := .wait }) ∧
    (s.hphase = .wait → s.irqPending = false → (s.sockRegistered = false ∨ s.netIn = []) →
      exec .arbTick s = .next
        { s with wokeIrq := false, wokeSock := false, log := s.log ++ [.tick], hphase := .ack })

/-- R201: ARB.WAIT is enabled by a pending interrupt or by a datagram on a registered socket, records both, and is not
enabled otherwise. -/
def Obligations.WaitRecordsTheReadySources : Prop :=
  ∀ s : State, s.hphase = .wait →
    (s.irqPending = true ∨ (s.sockRegistered = true ∧ s.netIn ≠ []) →
      exec .arbWait s = .next { s with
        wokeIrq := s.irqPending, wokeSock := decide (s.sockRegistered = true ∧ s.netIn ≠ []), hphase := .ack }) ∧
    (¬(s.irqPending = true ∨ (s.sockRegistered = true ∧ s.netIn ≠ [])) →
      exec .arbWait s = .refused (.notEnabled "ARB.WAIT"))

/-- R203: ARB.ACK clears the interrupt the wait saw. A DEV.SIGNAL in the same step wins: acknowledge and signal together
leave `irq_pending` set, which is what taking the acknowledge first and the signal next gives. -/
def Obligations.AcknowledgeClearsAndALaterSignalWins : Prop :=
  ∀ s : State, s.hphase = .ack →
    exec .arbAck s = .next { s with irqPending := s.irqPending && !s.wokeIrq, hphase := .rxTest } ∧
    (s.devSigOwed = true → ∃ t u, exec .arbAck s = .next t ∧ exec .devSignal t = .next u ∧
      u = { s with irqPending := true, devSigOwed := false, hphase := .rxTest } ∧ signalDuringAck s = true)

/-- R204: ARB.RXTEST, on every pass, whatever woke Host. -/
def Obligations.ReceiveOwnershipIsTested : Prop :=
  ∀ s : State, s.hphase = .rxTest →
    (s.ifb.rOwner = .host → exec .arbRxtest s = .next { s with hphase := .rxStatus }) ∧
    (s.ifb.rOwner = .device → exec .arbRxtest s = .next { s with hphase := .txDone })

/-- R205: ARB.RXSTATUS: the status word, the optional dump of the raw payload, and the length test. -/
def Obligations.ReceiveStatusIsValidated : Prop :=
  ∀ s : State, s.hphase = .rxStatus → s.ifb.rOwner = .host →
    (s.ifb.rStatus = 0x0001 → s.ifb.rReceivedLength.toNat ≤ s.ifb.rMaxLength.toNat →
      exec .arbRxstatus s = .next { s with rxValid := true, hphase := .rxTrunc }) ∧
    (s.ifb.rStatus = 0x0001 → s.ifb.rMaxLength.toNat < s.ifb.rReceivedLength.toNat →
      exec .arbRxstatus s = .next
        { s with rxValid := false, log := s.log ++ [.rxLength s.ifb.rReceivedLength], hphase := .rxTrunc }) ∧
    (s.ifb.rStatus ≠ 0x0001 → s.cfg.diagDump = false →
      exec .arbRxstatus s = .next
        { s with rxValid := false, log := s.log ++ [.rxStatus s.ifb.rStatus], hphase := .rxTrunc }) ∧
    (∀ xs, s.ifb.rStatus ≠ 0x0001 → s.cfg.diagDump = true →
      xs.length = min s.ifb.rReceivedLength.toNat s.ifb.rMaxLength.toNat → xs.length ≤ s.cfg.rCap →
      Memory.holds s.rbuf xs →
      exec .arbRxstatus s = .next
        { s with rxValid := false, log := s.log ++ [.rxStatus s.ifb.rStatus, .diagDump xs], hphase := .rxTrunc })

/-- R206, R208: ARB.RXTRUNC and ARB.RXRELEASE, on the good path and on the bad one. -/
def Obligations.ReceiveBufferIsClearedAndReturned : Prop :=
  ∀ s : State, s.ifb.rOwner = .host →
    (s.hphase = .rxTrunc → s.ifb.rTruncated = true →
      exec .arbRxtrunc s = .next { s with
        ifb := { s.ifb with rTruncated := false }, log := s.log ++ [.rxTruncated s.ifb.rReceivedLength]
        hphase := if s.rxValid then .rxCopy else .rxRelease }) ∧
    (s.hphase = .rxTrunc → s.ifb.rTruncated = false →
      exec .arbRxtrunc s = .next { s with hphase := if s.rxValid then .rxCopy else .rxRelease }) ∧
    (s.hphase = .rxRelease →
      exec .arbRxrelease s = .next { s with
        ifb := { s.ifb with rOwner := .device }, hphase := if s.rxValid then .rxDecode else .txDone })

/-- R207: ARB.RXCOPY; the private copy beyond the frame keeps its leftovers. -/
def Obligations.ReceivePayloadIsCopied : Prop :=
  ∀ (s : State) xs, s.hphase = .rxCopy → s.ifb.rOwner = .host → s.ifb.rReceivedLength.toNat = xs.length →
    xs.length ≤ s.cfg.rCap → Memory.holds s.rbuf xs → ∃ m, Memory.stored s.rxCopy m 0 xs ∧
      exec .arbRxcopy s = .next { s with rxLen := xs.length, rxCopy := m, hphase := .rxRelease }

/-- R209: ARB.RXDECODE decodes the private copy, relays a good frame, logs an error, and goes on with the loop. -/
def Obligations.ReceivedFrameIsDecodedAndRelayed : Prop :=
  ∀ (s : State) xs, ReadyToDecode s xs → ∃ d c out es,
    exec .arbRxdecode s = .next { s with
      dec := d, crc := c, rxValid := false, hphase := .txDone
      netOut := s.netOut ++ out, log := s.log ++ (closedDec s.cfg.maxFrameBytes xs).2 ++ es } ∧
    d.phase = .idle ∧ c.phase = .idle ∧ d.result = (closedDec s.cfg.maxFrameBytes xs).1 ∧
    (∀ e, d.result = .error e → out = [] ∧ es = [.decode e]) ∧
    (∀ f n k, d.result = .frame f n k → f.length % 2 = 0 →
      out = [datagramOf (BitVec.ofNat 16 ((f.length - 2) / 2)) (f.take (f.length - 2))] ∧ es = []) ∧
    (∀ f n k, d.result = .frame f n k → f.length % 2 = 1 → out = [] ∧ es = [.relay (.oddFrame f.length)])

/-- R210, R211: ARB.TXDONE examines a finished transmit once; ARB.TXTEST takes one datagram when the wait saw the socket. -/
def Obligations.TransmitIsExaminedAndADatagramTaken : Prop :=
  ∀ s : State,
    (s.hphase = .txDone → ¬(s.txOutstanding = true ∧ s.ifb.wOwner = .host) →
      exec .arbTxdone s = .next { s with hphase := .txTest }) ∧
    (s.hphase = .txDone → s.txOutstanding = true → s.ifb.wOwner = .host →
      exec .arbTxdone s = .next { s with
        log := s.log ++ (if s.ifb.wStatus = 0x0002 then [] else [.txStatus s.ifb.wStatus])
        txOutstanding := false, hphase := .txTest }) ∧
    (s.hphase = .txTest → s.wokeSock = false → exec .arbTxtest s = .next { s with hphase := .arm }) ∧
    (∀ g gs, s.hphase = .txTest → s.wokeSock = true → s.netIn = g :: gs →
      exec .arbTxtest s = .next { s with txDgram := g, netIn := gs, hphase := .txOwner })

/-- R212: ARB.TXOWNER; on a violation nothing but the datagram, the log and the phase changes. -/
def Obligations.TransmitOwnerIsTested : Prop :=
  ∀ s : State, s.hphase = .txOwner →
    (s.ifb.wOwner = .host → exec .arbTxowner s = .next { s with hphase := .txFill }) ∧
    (s.ifb.wOwner = .device → exec .arbTxowner s = .next
      { s with txDgram := [], log := s.log ++ [.ownership s.txDgram.length], hphase := .arm })

/-- R213: ARB.TXFILL: RLY.OUT then ENC; an error is logged and the Transmit buffer stays as it was. It holds whichever
parts a trace has taken already; a HeaderMismatch that RLY.OUT logged is not logged twice (log entry 26). -/
def Obligations.DatagramIsEncoded : Prop :=
  ∀ s : State, s.hphase = .txFill → s.crc.phase = .idle → s.ifb.wOwner = .host →
    (s.txDgram.length < 2 → exec .arbTxfill s = .next { s with
      txDgram := [], log := s.log ++ [.relay (.malformed s.txDgram.length)], hphase := .arm, progress := .fresh }) ∧
    ∀ h l p es, s.txDgram = h :: l :: p →
      es = (if s.progress ≠ .fresh ∨ 2 * (h.toNat * 256 + l.toNat) = p.length then []
        else [Event.headerMismatch (h ++ l) p.length]) →
      (p.length % 2 = 1 → exec .arbTxfill s = .next { s with
        txDgram := [], log := s.log ++ es ++ [.encode (.oddLength p.length)], hphase := .arm, progress := .fresh }) ∧
      (p.length % 2 = 0 → s.cfg.wCap < p.length + 2 → exec .arbTxfill s = .next { s with
        txDgram := [], log := s.log ++ es ++ [.encode (.tooLong p.length)], hphase := .arm, progress := .fresh }) ∧
      (p.length % 2 = 0 → p.length + 2 ≤ s.cfg.wCap → ∃ m c,
        Memory.stored s.wbuf m 0 (wireFrame p) ∧ c.reg = crc16 p ∧ c.phase = .idle ∧
        exec .arbTxfill s = .next { s with
          txDgram := [], log := s.log ++ es, crc := c, enc := { len := p.length, crc := crc16 p }
          wbuf := m, ifb := { s.ifb with wLength := BitVec.ofNat 32 (p.length + 2) }
          hphase := .txRelease, progress := .fresh })

/-- R214: ARB.TXRELEASE hands the filled buffer off and kicks the Device; the ARB.ARM that follows leaves the socket out of
the wait set. -/
def Obligations.TransmitBufferIsHandedOff : Prop :=
  ∀ s : State, s.hphase = .txRelease → s.ifb.wOwner = .host → ∃ t,
    exec .arbTxrelease s = .next t ∧
    t = { s with
      ifb := { s.ifb with wOwner := .device }, txOutstanding := true, kickPending := true, hphase := .arm } ∧
    exec .arbArm t = .next { t with sockRegistered := false, hphase := .wait }

/-! ## Environment agents -/

/-- R215: DEV.RXDONE, within the bound it keeps; a longer fill is no step of the Device (R71, log entry 10). -/
def Obligations.DeviceDeliversAFrame : Prop :=
  ∀ (s : State) d st tr, s.ifb.rOwner = .device →
    (d.length ≤ s.ifb.rMaxLength.toNat → d.length ≤ s.cfg.rCap → ∃ m, Memory.stored s.rbuf m 0 d ∧
      exec (.devRxdone d st tr) s = .next { s with
        rbuf := m, devSigOwed := true
        ifb := { s.ifb with
          rReceivedLength := BitVec.ofNat 32 d.length, rTruncated := s.ifb.rTruncated || tr, rStatus := st
          rOwner := .host } }) ∧
    (s.ifb.rMaxLength.toNat < d.length →
      exec (.devRxdone d st tr) s = .refused (.breaksDeviceBound d.length))

/-- R216, R217, R218: DEV.TXDONE, DEV.SIGNAL and NET.ARRIVE, delivered or lost. -/
def Obligations.DeviceCompletesSignalsAndDatagramsArrive : Prop :=
  ∀ s : State,
    (∀ st, s.ifb.wOwner = .device → exec (.devTxdone st) s = .next { s with
      kickPending := false, ifb := { s.ifb with wStatus := st, wOwner := .host }, devSigOwed := true }) ∧
    (s.devSigOwed = true → exec .devSignal s = .next { s with irqPending := true, devSigOwed := false }) ∧
    (∀ g, exec (.netArrive g false) s = .next { s with netIn := s.netIn ++ [g] }) ∧
    (∀ g, exec (.netArrive g true) s = .next s)

/-! ## Relay -/

/-- R250, R251: RLY.IN on the frame DEC has returned, and RLY.OUT on `tx_dgram`, each once. That each leaves what it
returned in `result`, that its caller logs its error, and `progress` are the model's conventions (log entries 9, 26). -/
def Obligations.RelayFramesAndUnframes : Prop :=
  (∀ (s : State) p a b n k, s.hphase = .rxDecode → s.dec.phase = .idle → s.progress = .decoding →
    s.dec.result = .frame (p ++ [a, b]) n k →
    (p.length % 2 = 0 → exec (.rlyIn (p ++ [a, b])) s = .next { s with
      netOut := s.netOut ++ [BitVec.ofNat 8 (p.length / 2 / 256) :: BitVec.ofNat 8 (p.length / 2) :: p]
      result := .relayed, progress := .relayed }) ∧
    (p.length % 2 = 1 → exec (.rlyIn (p ++ [a, b])) s = .next
      { s with result := .rlyError (.oddFrame (p.length + 2)), progress := .relayed })) ∧
  (∀ s : State, s.hphase = .txFill → s.progress = .fresh →
    (s.txDgram.length < 2 → exec (.rlyOut s.txDgram) s = .next
      { s with result := .rlyError (.malformed s.txDgram.length), progress := .ended }) ∧
    (∀ h l p, s.txDgram = h :: l :: p → 2 * (h.toNat * 256 + l.toNat) = p.length →
      exec (.rlyOut s.txDgram) s = .next { s with result := .payload p, progress := .unframed }) ∧
    (∀ h l p, s.txDgram = h :: l :: p → 2 * (h.toNat * 256 + l.toNat) ≠ p.length →
      exec (.rlyOut s.txDgram) s = .next { s with
        log := s.log ++ [.headerMismatch (h ++ l) p.length], result := .payload p, progress := .unframed }))

/-- R253: a frame that one block decodes and relays is put on the other block's line unchanged. -/
def Obligations.RelayedFrameCrossesUnchanged : Prop :=
  ∀ (n : Nat) xs f k c g (s : State), (n - 2) / 2 < 2 ^ 16 → (closedDec n xs).1 = .frame f k c → relayIn f = .ok g →
    s.hphase = .txFill → s.crc.phase = .idle → s.ifb.wOwner = .host → s.txDgram = g → f.length ≤ s.cfg.wCap →
    ∃ t, exec .arbTxfill s = .next t ∧ t.log = s.log ∧ t.hphase = .txRelease ∧
      Memory.holds t.wbuf f ∧ t.ifb.wLength = BitVec.ofNat 32 f.length

/-! ## The handlers as operations (R222) -/

/-- R222: of two datagrams sent back to back, with no completion between, the first is committed and the second dropped
with an OwnershipViolation; nothing is overwritten. -/
def Obligations.BackpressureDropsTheSecondDatagram : Prop :=
  ∀ (s : State) h l p g, s.ifb.wOwner = .host → s.crc.phase = .idle → p.length % 2 = 0 → p.length + 2 ≤ s.cfg.wCap →
    ∃ t, sendHandler (h :: l :: p) s = .next t ∧
      Memory.holds t.wbuf (wireFrame p) ∧ t.ifb.wLength = BitVec.ofNat 32 (p.length + 2) ∧
      t.ifb.wOwner = .device ∧ t.txOutstanding = true ∧ t.kickPending = true ∧
      sendHandler g t = .next { t with txDgram := [], log := t.log ++ [.ownership g.length], hphase := .arm }

/-- R221 e: the receive handler runs to its end and returns the buffer, whatever the status and whatever DEC gives. -/
def Obligations.ReceiveHandlerReturnsTheBuffer : Prop :=
  ∀ s : State, s.cfg.valid = true → s.ifb.rMaxLength = BitVec.ofNat 32 s.cfg.rCap → s.ifb.rOwner = .host →
    s.dec.phase = .idle → s.crc.phase = .idle →
    Memory.written s.rbuf (min s.ifb.rReceivedLength.toNat s.cfg.rCap) →
    ∃ t, receiveHandler s = .next t ∧ t.ifb = { s.ifb with rOwner := .device, rTruncated := false } ∧
      t.rbuf = s.rbuf ∧ t.hphase = .txDone ∧ t.dec.phase = .idle

/-! ## Step, trace and encoding -/

/-- What a step runs: the operation the trace names (a reset request or the return of a CRC16 apart, which are no
operations; log entries 6 and 18), with the trace moved past it; with no trace, the operation the phases select (R14, R90,
R104; log entry 1). For each phase of the loop, which operation that is (R26, R219, R201, R202): the last six lines. That a
CRC16 and a decode begun by their primitives are gone on with before the loop is the model's order (log entry 20). -/
def Obligations.StepRunsTheSelectedOperation : Prop :=
  (∀ (s : State) i r, traceControl s.feed = none → decode s.feed = .ok (i, r) → step s = exec i { s with feed := r }) ∧
  (∀ (s : State) e, s.feed ≠ [] → traceControl s.feed = none → decode s.feed = .error e →
    step s = .refused (.undecodable e)) ∧
  (∀ (s : State) r, s.feed = 0xFE :: 0x00 :: r → CrcTurn s → s.crc.phase = .load →
    step s = .next { s with crc := { s.crc with phase := .idle }, feed := r }) ∧
  (∀ s : State, s.feed = [] → CrcTurn s → s.crc.phase = .load →
    step s = .next { s with crc := { s.crc with phase := .idle } }) ∧
  (∀ (s : State) i, s.feed = [] → ¬(CrcTurn s ∧ s.crc.phase = .load) → select s = .ok i → step s = exec i s) ∧
  (∀ s : State, s.feed = [] → s.hphase = .halt → step s = .fault .halted) ∧
  (∀ s : State, CrcTurn s → s.crc.phase = .bit → select s = .ok .crcBit) ∧
  (∀ s : State, s.crc.phase ≠ .bit → s.hphase = .rxDecode → s.dec.phase ≠ .idle → select s = decOp s) ∧
  (∀ s : State, s.crc.phase ≠ .bit → s.dec.phase = .idle → s.hphase = .wait → SourceReady s →
    select s = .ok .arbWait) ∧
  (∀ s : State, s.crc.phase ≠ .bit → s.dec.phase = .idle → s.hphase = .wait → ¬SourceReady s →
    select s = .ok .arbTick) ∧
  ∀ s : State, s.crc.phase ≠ .bit → s.dec.phase = .idle → ∀ p i,
    (p, i) ∈ [(HPhase.boot, Instr.arbBoot), (.arm, .arbArm), (.ack, .arbAck), (.rxTest, .arbRxtest),
      (.rxStatus, .arbRxstatus), (.rxTrunc, .arbRxtrunc), (.rxCopy, .arbRxcopy), (.rxRelease, .arbRxrelease),
      (.rxDecode, .arbRxdecode), (.txDone, .arbTxdone), (.txTest, .arbTxtest), (.txOwner, .arbTxowner),
      (.txFill, .arbTxfill), (.txRelease, .arbTxrelease)] →
    s.hphase = p → select s = .ok i

/-- Decoding an encoded well-formed operation gives it back, with every operand, and leaves what follows. -/
def Obligations.DecodeUndoesEncode : Prop :=
  ∀ i r, i.wf = true → decode (encode i ++ r) = .ok (i, r) ∧ traceControl (encode i ++ r) = none

/-- What decodes is well formed, and its encoding is the bytes it was decoded from: each operation has one spelling. -/
def Obligations.DecodedBytesAreTheEncoding : Prop :=
  ∀ bs i r, decode bs = .ok (i, r) → i.wf = true ∧ bs = encode i ++ r

/-- A few trace words, their codes R92's, R94's and R104's. The two-byte form of a word, and that a bare table number is read
as a code of `hphase`, are the model's choices (log entries 1 and 2). -/
def Obligations.WrittenWordsDecode : Prop :=
  decode [0x0E, 0x00] = .ok (.arbArm, []) ∧ decode [0x08, 0x00] = .ok (.arbRxdecode, []) ∧
  decode [0x40, 0x53] = .ok (.decSingle 83, []) ∧ decode [0x40, 0xA6] = .ok (.decDouble 166, []) ∧
  decode [0x32, 0x00] = .ok (.decPair1, []) ∧ decode [0x21, 0x00, 0x42] = .ok (.crcLoad 0x42, []) ∧
  decode [0x0F, 0x00] = .error (.noOperation 0x0F 0x00) ∧ decodeTableWord 4 0xE = some .arbArm

/-! ## Whole-machine rules -/

/-- R26, R90: an operation is taken only in its phase of each phase register; ARB.WAIT and ARB.TICK only under their guards
(R201, R202), a part only after the part before it (R181 to R183, R250, R251), an operation on a buffer only while Host
owns it (R70, R71); the environment's only under theirs (R215 to R217). In `H_HALT` no operation of Host is taken (R223,
R292), in `H_WAIT` none but ARB.WAIT and ARB.TICK (R201, R298). The CRC family's turn is log entry 25's. -/
def Obligations.OperationsAreGatedByPhase : Prop :=
  ∀ i (s t : State), exec i s = .next t →
    (∀ p, hostPhase i = some p → s.hphase = p) ∧ (∀ p, decoderPhase i = some p → s.dec.phase = p) ∧
    (∀ p, crcPhase i = some p → s.crc.phase = p) ∧ (∀ p, partAfter i = some p → s.progress = p) ∧
    (inCrcFamily i = true → CrcTurn s) ∧ (i = .crcBit → s.crc.cnt < 8) ∧
    (i = .arbWait → SourceReady s) ∧ (i = .arbTick → ¬SourceReady s) ∧
    (touchesReceive i = true → s.ifb.rOwner = .host) ∧ (touchesTransmit i = true → s.ifb.wOwner = .host) ∧
    (fillsReceive i = true → s.ifb.rOwner = .device) ∧ (returnsTransmit i = true → s.ifb.wOwner = .device) ∧
    (i = .devSignal → s.devSigOwed = true) ∧
    (s.hphase = .halt → agentOf i ≠ .host) ∧ (s.hphase = .wait → agentOf i = .host → i = .arbWait ∨ i = .arbTick)

/-- R219, R26: the Host phase moves only by an operation of that phase, and only along the loop; nothing leaves `H_HALT`.
The decoder's phase and the CRC unit likewise move only by an operation of their phase. -/
def Obligations.PhasesFollowTheLoop : Prop :=
  ∀ i (s t : State), exec i s = .next t →
    (t.hphase ≠ s.hphase → hostPhase i = some s.hphase ∧ t.hphase ∈ s.hphase.next) ∧
    (t.dec.phase ≠ s.dec.phase → decoderPhase i = some s.dec.phase) ∧
    (t.crc ≠ s.crc → crcPhase i = some s.crc.phase) ∧
    (s.hphase = .halt → t.hphase = .halt)

/-- R200, R221 a, SV-5: the four transitions of the owner fields and no other, each by its one operation; and a payload is
written only by its owner's operation. -/
def Obligations.OwnershipMovesByHandOffOnly : Prop :=
  ∀ i (s t : State), exec i s = .next t →
    (t.ifb.rOwner ≠ s.ifb.rOwner →
      (s.ifb.rOwner = .device ∧ fillsReceive i = true) ∨ (s.ifb.rOwner = .host ∧ i = .arbRxrelease)) ∧
    (t.ifb.wOwner ≠ s.ifb.wOwner →
      (s.ifb.wOwner = .host ∧ i = .arbTxrelease) ∨ (s.ifb.wOwner = .device ∧ returnsTransmit i = true)) ∧
    (t.rbuf ≠ s.rbuf → s.ifb.rOwner = .device ∧ fillsReceive i = true) ∧
    (t.wbuf ≠ s.wbuf ∨ t.ifb.wLength ≠ s.ifb.wLength → s.ifb.wOwner = .host ∧ fillsTransmit i = true)

/-- R33, R252, R28, R100: the log and the broadcasts only grow, by at most one datagram a step; the parameters, the inputs
and the three fields nobody writes stay as they are. -/
def Obligations.OutputsOnlyGrow : Prop :=
  ∀ i (s t : State), exec i s = .next t →
    (∃ es, t.log = s.log ++ es) ∧ (∃ gs, gs.length ≤ 1 ∧ t.netOut = s.netOut ++ gs) ∧
    t.cfg = s.cfg ∧ t.bootOk = s.bootOk ∧ t.feed = s.feed ∧ t.ifb.rMaxLength = s.ifb.rMaxLength ∧
    t.ifb.rBufAddr = s.ifb.rBufAddr ∧ t.ifb.wBufAddr = s.ifb.wBufAddr

/-- R252, R7, R209: one received frame leaves as at most one datagram. Only ARB.RXDECODE and RLY.IN broadcast; RLY.IN is
followed by nothing that broadcasts until ARB.RXDECODE has ended, and ARB.RXDECODE ends the handling of the frame. The
mark `progress` is the model's own (log entry 26). -/
def Obligations.EachFrameLeavesOnce : Prop :=
  ∀ i (s t : State), exec i s = .next t →
    (t.netOut ≠ s.netOut → s.hphase = .rxDecode ∧ s.progress ≠ .relayed ∧
      (t.hphase = .txDone ∨ (t.hphase = .rxDecode ∧ t.progress = .relayed))) ∧
    (s.hphase = .rxDecode → s.progress = .relayed → t.netOut = s.netOut ∧
      (t.hphase = .txDone ∨ (t.hphase = .rxDecode ∧ t.progress = .relayed)))

/-- R14, R184, R209, R213: an arbiter operation taken after its own parts ends where it ends when it is taken as one step,
but for the model's own field `result`. First ARB.RXDECODE after DEC, and after DEC and RLY.IN; then ARB.TXFILL after
RLY.OUT, ENC.CHECK, ENC.CRC and ENC.FILL, and after RLY.OUT and ENC. -/
def Obligations.PartsMakeTheWhole : Prop :=
  (∀ (s t : State) xs, ReadyToDecode s xs → exec .dec s = .next t →
    exec .arbRxdecode t = exec .arbRxdecode s ∧
    ∀ f n c, t.dec.result = .frame f n c → ∃ u v, exec (.rlyIn f) t = .next u ∧
      exec .arbRxdecode s = .next v ∧ exec .arbRxdecode u = .next { v with result := u.result }) ∧
  ∀ (s : State) h l p, s.hphase = .txFill → s.progress = .fresh → s.crc.phase = .idle → s.ifb.wOwner = .host →
    s.txDgram = h :: l :: p → p.length % 2 = 0 → p.length + 2 ≤ s.cfg.wCap → ∃ a b c d e v,
      exec (.rlyOut (h :: l :: p)) s = .next a ∧ exec (.encCheck p.length) a = .next b ∧
      exec (.encCrc p) b = .next c ∧ exec (.encFill p) c = .next d ∧ exec (.enc p) a = .next e ∧
      exec .arbTxfill s = .next v ∧ exec .arbTxfill d = .next { v with result := d.result } ∧
      exec .arbTxfill e = .next { v with result := e.result }

/-- R35, R221 d, SV-5: the frames in flight, by the views of log entry 23: toward the Device a whole wire frame of an even
payload exactly while the Device owns Transmit, toward the decoder the samples of the private copy exactly while they
wait. And while a frame is in flight toward the Device no step takes a datagram from `net_in`, and the frame stays as it
is until the Device returns the buffer. -/
def Obligations.NoDatagramLeavesWhileInFlight : Prop :=
  (∀ s : State, Inv s →
    (s.ifb.wOwner = .device →
      ∃ p, p.length % 2 = 0 ∧ p.length + 2 ≤ s.cfg.wCap ∧ txInFlight s = some (.ok (wireFrame p))) ∧
    (s.ifb.wOwner = .host → txInFlight s = none) ∧
    ((s.hphase = .rxRelease ∧ s.rxValid = true) ∨ s.hphase = .rxDecode →
      ∃ xs, xs.length = s.rxLen ∧ rxInFlight s = some (.ok xs)) ∧
    (¬((s.hphase = .rxRelease ∧ s.rxValid = true) ∨ s.hphase = .rxDecode) → rxInFlight s = none)) ∧
  ∀ s t : State, Inv s → s.ifb.wOwner = .device → (∀ b r, traceControl s.feed ≠ some (.reset b, r)) →
    step s = .next t → s.txOutstanding = true ∧ (∃ gs, t.netIn = s.netIn ++ gs) ∧
      (txInFlight t = txInFlight s ∨ t.ifb.wOwner = .host)

/-- R70, R318: while the Device owns the Receive buffer its contents influence nothing else: a step from two states that
differ only there ends in two states that differ only there. -/
def Obligations.DeviceOwnedPayloadIsInvisible : Prop :=
  ∀ i (s t : State) m, s.ifb.rOwner = .device → exec i s = .next t →
    ∃ m', exec i { s with rbuf := m } = .next { t with rbuf := m' }

/-! ## Invariants of every step -/

/-- Every step keeps every payload space in the model's own representation, a list of strictly rising indices (log entry
19, DEDUCED): R60 and R38 give the spaces, not the form. -/
def Obligations.StepsKeepMemoriesCanonical : Prop :=
  ∀ s t : State, MemoriesCanonical s → step s = .next t → MemoriesCanonical t

/-- R36, R70, R220, R221, R327: every step of every agent, in any order, keeps the invariant, the whole frame in flight
toward the Device (R29, R35, R38) and the order of the parts (R37, R38, R326) included. -/
def Obligations.StepsKeepTheInvariant : Prop :=
  ∀ s t : State, Inv s → step s = .next t → Inv t

/-- The invariant holds after reset, under any parameters U2 allows; the defaults are such. -/
def Obligations.ResetMeetsTheInvariant : Prop :=
  Inv State.reset ∧ ∀ cfg b f, cfg.valid = true → Inv (State.resetFor cfg b f)

/-- R219, R291: left to itself the Host always has a step, but in `H_HALT`. -/
def Obligations.HostIsNeverStuck : Prop :=
  ∀ s : State, Inv s → s.feed = [] → s.hphase ≠ .halt → ∃ t, step s = .next t

/-- R38, R71, R221: from the invariant no step reads an element without a value, leaves a region, breaks ownership or takes
from an empty queue; the one fault is `H_HALT`. -/
def Obligations.NoStepFaultsOrBreaksOwnership : Prop :=
  ∀ s : State, Inv s → (∀ r, step s = .fault r → r = .halted) ∧ ∀ b, step s ≠ .refused (.breaksOwnership b)
end

