-- ==== Sys2Proof/Laws/Ops.lean ====
section
/-! SUPPORT. When each shared step of a meaning answers a next state, said once: a meaning's own lemma cites these and
unfolds no combinator. -/

namespace Sys2Proof.Machine

@[simp] theorem Out.andThen_next (s : State) (f : State → Out) : Out.andThen (.next s) f = f s := rfl
@[simp] theorem Out.andThen_fault (r : Fault) (f : State → Out) : Out.andThen (.fault r) f = .fault r := rfl
@[simp] theorem Out.andThen_refused (r : Refusal) (f : State → Out) : Out.andThen (.refused r) f = .refused r := rfl

theorem Out.andThen_eq_next {o : Out} {f : State → Out} {t : State} :
    Out.andThen o f = .next t ↔ ∃ u, o = .next u ∧ f u = .next t := by
  cases o <;> simp

@[simp] theorem reading_ok {α : Type} (v : α) (f : α → Out) : reading (.ok v) f = f v := rfl
@[simp] theorem reading_error {α : Type} (r : Fault) (f : α → Out) : reading (.error r) f = .fault r := rfl

theorem reading_eq_next {α : Type} {x : Except Fault α} {f : α → Out} {t : State} :
    reading x f = .next t ↔ ∃ v, x = .ok v ∧ f v = .next t := by
  cases x <;> simp

@[simp] theorem enabledIf_true (m : String) (o : Out) : enabledIf m true o = o := rfl
@[simp] theorem enabledIf_false (m : String) (o : Out) : enabledIf m false o = .refused (.notEnabled m) := rfl

theorem enabledIf_eq_next {m : String} {c : Bool} {o : Out} {t : State} :
    enabledIf m c o = .next t ↔ c = true ∧ o = .next t := by
  cases c <;> simp

theorem hostOwnsRx_eq_next {s t : State} {o : Out} :
    hostOwnsRx s o = .next t ↔ s.ifb.rOwner = .host ∧ o = .next t := by
  unfold hostOwnsRx; split <;> simp_all

theorem hostOwnsTx_eq_next {s t : State} {o : Out} :
    hostOwnsTx s o = .next t ↔ s.ifb.wOwner = .host ∧ o = .next t := by
  unfold hostOwnsTx; split <;> simp_all

theorem atPhase_eq_next {m : String} {p : HPhase} {s t : State} {o : Out} :
    atPhase m p s o = .next t ↔ s.hphase = p ∧ o = .next t := by
  rw [atPhase, enabledIf_eq_next, beq_iff_eq]

theorem decodingAt_iff {p : DPhase} {s : State} : decodingAt p s = true ↔ s.hphase = .rxDecode ∧ s.dec.phase = p := by
  simp [decodingAt]

theorem fillingAt_iff {a : Progress} {s : State} : fillingAt a s = true ↔ s.hphase = .txFill ∧ s.progress = a := by
  simp [fillingAt]

/-- RLY.OUT returns a payload exactly when the datagram has its header (R251). -/
theorem txPayload_eq_some {s : State} {p : List Byte} :
    txPayload s = some p ↔ ∃ h l, s.txDgram = h :: l :: p := by
  unfold txPayload
  match hg : s.txDgram with
  | [] => simp [relayOut]
  | [_] => simp [relayOut]
  | h :: l :: q => simp [relayOut]

/-- All a sample operation can do before its own effect (R142). -/
theorem onSample_eq_next {m : String} {c : SampleClass} {raw : Byte} {s t : State} {f : State → Out} :
    onSample m c raw s f = .next t ↔
      s.hphase = .rxDecode ∧ s.dec.phase = .classify ∧ s.dec.k < s.rxLen ∧ loadSample s = .ok raw ∧ classify raw = c ∧
        f (s.setDec { s.dec with widthNs := widthNs raw }) = .next t := by
  simp only [onSample, enabledIf_eq_next, reading_eq_next, classifying, decodingAt_iff, Bool.and_eq_true, beq_iff_eq,
    decide_eq_true_eq]
  constructor
  · rintro ⟨⟨⟨h0, h1⟩, h2⟩, v, hv, ⟨rfl, hc⟩, ht⟩; exact ⟨h0, h1, h2, hv, hc, ht⟩
  · rintro ⟨h0, h1, h2, hv, hc, ht⟩; exact ⟨⟨⟨h0, h1⟩, h2⟩, raw, hv, ⟨rfl, hc⟩, ht⟩

/-- All "toggle level, append" can do (R144, R146). -/
theorem toggleAppend_eq_next {n : Nat} {s t : State} :
    toggleAppend n s = .next t ↔
      s.dec.lLen + n ≤ s.cfg.lCap ∧
        t = s.setDec { s.dec with
          level := !s.dec.level
          levels := Memory.writeAll s.dec.levels s.dec.lLen (List.replicate n (!s.dec.level))
          lLen := s.dec.lLen + n, k := s.dec.k + 1
          phase := if s.dec.k + 1 = s.rxLen then .parity else .classify } := by
  unfold toggleAppend storeSpan
  by_cases h : s.dec.lLen + n ≤ s.cfg.lCap <;> simp [h, eq_comm]

/-- When a pair is read (R155). -/
theorem loadPair_eq_ok {s : State} {a b : Bool} :
    loadPair s = .ok (a, b) ↔
      loadCell .levels s.cfg.lCap s.dec.levels s.dec.i = .ok a ∧
        loadCell .levels s.cfg.lCap s.dec.levels (s.dec.i + 1) = .ok b := by
  unfold loadPair
  cases loadCell .levels s.cfg.lCap s.dec.levels s.dec.i <;>
    cases loadCell .levels s.cfg.lCap s.dec.levels (s.dec.i + 1) <;> simp

/-- All a pair operation can do (R150 to R152). -/
theorem onPair_eq_next {m : String} {a b : Bool} {s t : State} {o : Out} :
    onPair m a b s o = .next t ↔
      s.hphase = .rxDecode ∧ s.dec.phase = .pair ∧ s.dec.nbits < 8 ∧ s.dec.i + 1 < s.dec.lLen ∧
        loadPair s = .ok (a, b) ∧ o = .next t := by
  simp only [onPair, enabledIf_eq_next, reading_eq_next, pairing, decodingAt_iff, Bool.and_eq_true, beq_iff_eq,
    decide_eq_true_eq]
  constructor
  · rintro ⟨⟨⟨⟨h0, h1⟩, h2⟩, h3⟩, ⟨x, y⟩, hv, ⟨rfl, rfl⟩, ht⟩; exact ⟨h0, h1, h2, h3, hv, ht⟩
  · rintro ⟨h0, h1, h2, h3, hv, ht⟩; exact ⟨⟨⟨⟨h0, h1⟩, h2⟩, h3⟩, (a, b), hv, ⟨rfl, rfl⟩, ht⟩

/-- All ENC.FILL can do (R183). -/
theorem encStore_eq_next {p : List Byte} {s t : State} :
    encStore p s = .next t ↔
      s.ifb.wOwner = .host ∧ (p.take s.enc.len).length + 2 ≤ s.cfg.wCap ∧
        t = { s with
          wbuf := Memory.writeAll s.wbuf 0 (p.take s.enc.len ++ [hi s.enc.crc, lo s.enc.crc])
          ifb := { s.ifb with wLength := BitVec.ofNat 32 (s.enc.len + 2) } } := by
  unfold encStore storeSpan
  rw [hostOwnsTx_eq_next]
  by_cases h : (p.take s.enc.len).length + 2 ≤ s.cfg.wCap
  · have h' : min s.enc.len p.length + 2 ≤ s.cfg.wCap := by simpa using h
    simp [h', eq_comm]
  · have h' : ¬min s.enc.len p.length + 2 ≤ s.cfg.wCap := by simpa using h
    simp [h']

end Sys2Proof.Machine
end

