-- ==== Sys2Proof/Laws/Crc.lean ====
section
/-! SUPPORT. The CRC unit's composites on its registers, and all that an operation of the CRC family can do. -/

namespace Sys2Proof.Machine

@[simp] theorem CrcUnit.run_phase (c : CrcUnit) (bs : List Byte) : (c.run bs).phase = .idle := rfl

@[simp] theorem CrcUnit.run_nil (c : CrcUnit) : c.run [] = { c with reg := 0x8005, phase := .idle } := rfl

theorem CrcUnit.init_reg (c : CrcUnit) : c.init.reg = 0x8005 := rfl

/-- CRC.BIT counts one iteration and leaves the byte after the eighth. -/
theorem CrcUnit.bitStep_cnt (c : CrcUnit) : c.bitStep.cnt = c.cnt + 1 := rfl

theorem CrcUnit.bitStep_data (c : CrcUnit) : c.bitStep.data = c.data <<< 1 := rfl

@[simp] theorem CrcUnit.returned_phase (c : CrcUnit) : c.returned.phase = .idle := rfl
@[simp] theorem CrcUnit.returned_reg (c : CrcUnit) : c.returned.reg = c.reg := rfl

theorem crcTurn_iff {s : State} : crcTurn s = true ↔ CrcTurn s := by
  cases h : s.hphase <;> simp [crcTurn, CrcTurn, h]

@[simp] theorem crcFree_iff {c : CrcUnit} : crcFree c = true ↔ c.phase = .idle := by simp [crcFree]

/-- All an operation of the CRC family can do (R120 to R124). -/
theorem onCrc_eq_next {m : String} {p : CPhase} {s t : State} {c : CrcUnit} :
    onCrc m p s c = .next t ↔ CrcTurn s ∧ s.crc.phase = p ∧ t = s.setCrc c := by
  simp only [onCrc, enabledIf_eq_next, Bool.and_eq_true, beq_iff_eq, crcTurn_iff, and_assoc]
  exact and_congr_right fun _ => and_congr_right fun _ => by rw [Host.Outcome.next.injEq, eq_comm]

/-- No operation of the CRC family and no return of CRC16 is taken where the family has no turn, `H_WAIT` and `H_HALT`
among them (R201, R292). -/
theorem not_crcTurn_of_hphase {s : State} (h1 : s.hphase ≠ .boot) (h2 : s.hphase ≠ .rxDecode) (h3 : s.hphase ≠ .txFill) :
    ¬CrcTurn s := by simp [CrcTurn, h1, h2, h3]

end Sys2Proof.Machine
end

