-- ==== Sys2Proof/Laws/Decode.lean ====
section
/-! SUPPORT. Each operand reader of the trace undoes the operand writer. -/

namespace Sys2Proof

open Sys2Proof.Machine

theorem takeCount_putCount {n : Nat} (h : n < 2 ^ 32) (r : List Byte) :
    takeCount (putCount n ++ r) = .ok (n, r) := by
  simp only [putCount, List.cons_append, List.nil_append, takeCount, BitVec.toNat_ofNat]
  congr 2
  omega

theorem takeBytes_append (bs r : List Byte) : takeBytes bs.length (bs ++ r) = .ok (bs, r) := by
  induction bs with
  | nil => rfl
  | cons b bs ih => simp [takeBytes, ih]

theorem takeFlag_putFlag (f : Bool) (r : List Byte) : takeFlag (putFlag f :: r) = .ok (f, r) := by
  cases f <;> simp [takeFlag, putFlag]

theorem takeFlags_map (fs : List Bool) (r : List Byte) :
    takeFlags fs.length (fs.map putFlag ++ r) = .ok (fs, r) := by
  induction fs with
  | nil => rfl
  | cons f fs ih => simp [takeFlags, takeFlag_putFlag, ih]

theorem beWord_hi_lo (w : Word16) : beWord (hi w) (lo w) = w := by
  apply BitVec.eq_of_getLsbD_eq
  intro i hi'
  simp only [beWord, hi, lo, BitVec.getLsbD_or, BitVec.getLsbD_shiftLeft, BitVec.getLsbD_setWidth,
    BitVec.getLsbD_extractLsb']
  by_cases h : i < 8
  · simp [h, hi']
  · have h1 : i - 8 < 16 := by omega
    have h2 : i - 8 < 8 := by omega
    have h3 : 8 + (i - 8) = i := by omega
    simp [h, hi', h1, h2, h3]

theorem takeWord_putWord (w : Word16) (r : List Byte) : takeWord (putWord w ++ r) = .ok (w, r) := by
  simp [takeWord, putWord, beWord_hi_lo]

theorem takeSeq_putSeq {bs : List Byte} (h : bs.length < 2 ^ 32) (r : List Byte) :
    takeSeq (putSeq bs ++ r) = .ok (bs, r) := by
  rw [putSeq, List.append_assoc, takeSeq, takeCount_putCount h]
  exact takeBytes_append bs r

theorem takeBits_putBits {fs : List Bool} (h : fs.length < 2 ^ 32) (r : List Byte) :
    takeBits (putBits fs ++ r) = .ok (fs, r) := by
  rw [putBits, List.append_assoc, takeBits, takeCount_putCount h]
  exact takeFlags_map fs r

end Sys2Proof
end

