-- ==== Sys2Proof/Laws/Memory.lean ====
section
/-! SUPPORT. The laws of the payload memories: read after write, the frame of a write, the canonical form, and what the
region accesses answer. -/

namespace Sys2Proof.Machine

variable {α : Type}

@[simp] theorem Memory.read_nil (a : Nat) : Memory.read ([] : Memory α) a = none := rfl

theorem Memory.read_write_same (m : Memory α) (a : Nat) (x : α) :
    Memory.read (Memory.write m a x) a = some x := by
  induction m with
  | nil => simp [Memory.write, Memory.read]
  | cons c m ih =>
    obtain ⟨b, v⟩ := c
    by_cases h1 : a < b
    · simp [Memory.write, h1, Memory.read]
    · by_cases h2 : a = b
      · simp [Memory.write, h2, Memory.read]
      · simp [Memory.write, h1, h2, Memory.read, ih]

theorem Memory.read_write_ne (m : Memory α) {a a' : Nat} (x : α) (h : a' ≠ a) :
    Memory.read (Memory.write m a x) a' = Memory.read m a' := by
  induction m with
  | nil => simp [Memory.write, Memory.read, h]
  | cons c m ih =>
    obtain ⟨b, v⟩ := c
    by_cases h1 : a < b
    · simp [Memory.write, h1, Memory.read, h]
    · by_cases h2 : a = b
      · subst h2; simp [Memory.write, Memory.read, h]
      · simp [Memory.write, h1, h2, Memory.read, ih]

@[simp] theorem Memory.read_write (m : Memory α) (a a' : Nat) (x : α) :
    Memory.read (Memory.write m a x) a' = if a' = a then some x else Memory.read m a' := by
  split
  · next h => subst h; exact Memory.read_write_same m _ x
  · next h => exact Memory.read_write_ne m x h

/-- What an index reads as after a sequence was written from `a` upward. -/
theorem Memory.read_writeAll (xs : List α) (m : Memory α) (a a' : Nat) :
    Memory.read (Memory.writeAll m a xs) a' =
      if a ≤ a' ∧ a' < a + xs.length then xs[a' - a]? else Memory.read m a' := by
  induction xs generalizing m a with
  | nil =>
    have : ¬(a ≤ a' ∧ a' < a) := by omega
    simp [Memory.writeAll, this]
  | cons x xs ih =>
    rw [Memory.writeAll, ih, Memory.read_write, List.length_cons]
    by_cases h1 : a' = a
    · have h2 : ¬(a + 1 ≤ a' ∧ a' < a + 1 + xs.length) := by omega
      have h3 : a ≤ a' ∧ a' < a + (xs.length + 1) := by omega
      rw [if_neg h2, if_pos h1, if_pos h3, h1]
      simp
    · by_cases h2 : a + 1 ≤ a' ∧ a' < a + 1 + xs.length
      · have h3 : a ≤ a' ∧ a' < a + (xs.length + 1) := by omega
        have h4 : a' - a = (a' - (a + 1)) + 1 := by omega
        rw [if_pos h2, if_pos h3, h4, List.getElem?_cons_succ]
      · have h3 : ¬(a ≤ a' ∧ a' < a + (xs.length + 1)) := by omega
        rw [if_neg h2, if_neg h1, if_neg h3]

/-! ## Canonical form -/

theorem Memory.risingAbove_mono {a b : Nat} (h : a ≤ b) :
    ∀ {m : Memory α}, Memory.risingAbove b m = true → Memory.risingAbove a m = true
  | [], _ => rfl
  | (c, v) :: m, hm => by
    simp only [Memory.risingAbove, Bool.and_eq_true, decide_eq_true_eq] at hm ⊢
    exact ⟨by omega, hm.2⟩

theorem Memory.risingAbove_write (m : Memory α) (b a : Nat) (x : α) (h : b < a)
    (hm : Memory.risingAbove b m = true) : Memory.risingAbove b (Memory.write m a x) = true := by
  induction m generalizing b with
  | nil => simp [Memory.write, Memory.risingAbove, h]
  | cons c m ih =>
    obtain ⟨d, v⟩ := c
    simp only [Memory.risingAbove, Bool.and_eq_true, decide_eq_true_eq] at hm
    by_cases h1 : a < d
    · simp [Memory.write, h1, Memory.risingAbove, h, hm.2]
    · by_cases h2 : a = d
      · subst h2; simp [Memory.write, Memory.risingAbove, h, hm.2]
      · simp [Memory.write, h1, h2, Memory.risingAbove, hm.1, ih d (by omega) hm.2]

/-- A write keeps the canonical form. -/
theorem Memory.wf_write (m : Memory α) (a : Nat) (x : α) (h : Memory.wf m = true) :
    Memory.wf (Memory.write m a x) = true := by
  cases m with
  | nil => rfl
  | cons c m =>
    obtain ⟨d, v⟩ := c
    simp only [Memory.wf] at h
    by_cases h1 : a < d
    · simp [Memory.write, h1, Memory.wf, Memory.risingAbove, h]
    · by_cases h2 : a = d
      · subst h2; simpa [Memory.write, Memory.wf] using h
      · simpa [Memory.write, h1, h2, Memory.wf] using Memory.risingAbove_write m d a x (by omega) h

/-- So does writing a sequence. -/
theorem Memory.wf_writeAll (xs : List α) (m : Memory α) (a : Nat) (h : Memory.wf m = true) :
    Memory.wf (Memory.writeAll m a xs) = true := by
  induction xs generalizing m a with
  | nil => exact h
  | cons x xs ih => exact ih _ _ (Memory.wf_write m a x h)

/-! ## Region accesses -/

/-- A read answers a value exactly when the index is in the region and the element holds that value. -/
theorem loadCell_eq_ok {sp : Space} {cap : Nat} {m : Memory α} {a : Nat} {v : α} :
    loadCell sp cap m a = .ok v ↔ a < cap ∧ Memory.read m a = some v := by
  unfold loadCell
  by_cases h : a < cap
  · cases hr : Memory.read m a <;> simp [h]
  · simp [h]

/-- Reading `n` elements answers the list of their values exactly when each of them answers. -/
theorem loadSpan_eq_ok {sp : Space} {cap : Nat} {m : Memory α} {a n : Nat} {vs : List α} :
    loadSpan sp cap m a n = .ok vs ↔
      vs.length = n ∧ ∀ j, j < n → a + j < cap ∧ Memory.read m (a + j) = vs[j]? := by
  induction n generalizing a vs with
  | zero => simp [loadSpan, eq_comm]
  | succ n ih =>
    rw [loadSpan]
    cases hc : loadCell sp cap m a with
    | error r =>
      have hno : ¬∃ v, loadCell sp cap m a = .ok v := by simp [hc]
      constructor
      · intro h; simp at h
      · rintro ⟨hl, h⟩
        cases vs with
        | nil => simp at hl
        | cons v vs => exact absurd ⟨v, loadCell_eq_ok.mpr (by simpa using h 0 (by omega))⟩ hno
    | ok v =>
      have hv := loadCell_eq_ok.mp hc
      cases hs : loadSpan sp cap m (a + 1) n with
      | error r =>
        constructor
        · intro h; simp at h
        · rintro ⟨hl, h⟩
          cases vs with
          | nil => simp at hl
          | cons w ws =>
            have : loadSpan sp cap m (a + 1) n = .ok ws := by
              refine ih.mpr ⟨by simpa using hl, fun j hj => ?_⟩
              have := h (j + 1) (by omega)
              rw [show a + (j + 1) = a + 1 + j by omega] at this
              simpa using this
            rw [hs] at this
            cases this
      | ok ws =>
        have hw := ih.mp hs
        constructor
        · rintro ⟨rfl⟩
          refine ⟨by simp [hw.1], fun j hj => ?_⟩
          cases j with
          | zero => simpa using hv
          | succ j =>
            have := hw.2 j (by omega)
            rw [show a + (j + 1) = a + 1 + j by omega]
            simpa using this
        · rintro ⟨hl, h⟩
          cases vs with
          | nil => simp at hl
          | cons u us =>
            have hu : u = v := by
              have := (h 0 (by omega)).2
              rw [Nat.add_zero, hv.2] at this
              simpa using this.symm
            have hus : loadSpan sp cap m (a + 1) n = .ok us := by
              refine ih.mpr ⟨by simpa using hl, fun j hj => ?_⟩
              have := h (j + 1) (by omega)
              rw [show a + (j + 1) = a + 1 + j by omega] at this
              simpa using this
            rw [hs] at hus
            cases hus
            rw [hu]

/-- A region write answers exactly when the sequence lies in the region. -/
theorem storeSpan_eq_ok {sp : Space} {cap : Nat} {m m' : Memory α} {a : Nat} {xs : List α} :
    storeSpan sp cap m a xs = .ok m' ↔ a + xs.length ≤ cap ∧ m' = Memory.writeAll m a xs := by
  unfold storeSpan
  split
  · next h => simp [h, eq_comm]
  · next h => simp [h]

/-- A region write keeps the canonical form. -/
theorem storeSpan_wf {sp : Space} {cap : Nat} {m m' : Memory α} {a : Nat} {xs : List α}
    (h : storeSpan sp cap m a xs = .ok m') (hm : Memory.wf m = true) : Memory.wf m' = true := by
  rw [(storeSpan_eq_ok.mp h).2]
  exact Memory.wf_writeAll xs m a hm

/-- The reset state's payload spaces are in canonical form: nothing is listed. -/
theorem State.resetFor_memories (cfg : Config) (b : Bool) (f : List Byte) :
    Memory.wf (State.resetFor cfg b f).rbuf = true ∧ Memory.wf (State.resetFor cfg b f).wbuf = true ∧
      Memory.wf (State.resetFor cfg b f).rxCopy = true ∧ Memory.wf (State.resetFor cfg b f).dec.levels = true ∧
        Memory.wf (State.resetFor cfg b f).dec.out = true := ⟨rfl, rfl, rfl, rfl, rfl⟩

end Sys2Proof.Machine
end

