-- ==== Sys2Proof/Laws/PerInstr.lean ====
section
/-! SUPPORT. Per operation: the low nibble of its first trace byte is the number spec/opcode_table.json gives its row
("match"), for every row that has one. -/

namespace Sys2Proof.Laws

/-- The "match" of the operation's row, where the table gives one. -/
def tableMatch : Instr → Option Nat
  | .crcInit => some 0x0 | .crcLoad _ => some 0x1 | .crcBit => some 0x2 | .crcByte _ => some 0x1 | .crc16 _ => some 0x0
  | .decStart => some 0x0 | .decParity => some 0x2 | .decPair1 => some 0b10 | .decPair0 => some 0b01
  | .decPairf00 => some 0b00 | .decPairf11 => some 0b11 | .decByte => some 0x3 | .decOvf => some 0x3
  | .decAlign => some 0x4 | .decRunt => some 0x5 | .decCheck => some 0x5 | .decDone => some 0x6 | .dec => some 0x0
  | .encCheck _ => some 0xC | .encCrc _ => some 0xC | .encFill _ => some 0xC | .enc _ => some 0xC
  | .arbBoot => some 0x0 | .arbArm => some 0xE | .arbWait => some 0x1 | .arbTick => some 0x1 | .arbAck => some 0x2
  | .arbRxtest => some 0x3 | .arbRxstatus => some 0x4 | .arbRxtrunc => some 0x5 | .arbRxcopy => some 0x6
  | .arbRxrelease => some 0x7 | .arbRxdecode => some 0x8 | .arbTxdone => some 0x9 | .arbTxtest => some 0xA
  | .arbTxowner => some 0xB | .arbTxfill => some 0xC | .arbTxrelease => some 0xD
  | .rlyIn _ => some 0x8 | .rlyOut _ => some 0xC
  | .decShort _ | .decSingle _ | .decAmbig _ | .decDouble _ | .decLong _ => none
  | .serLevels _ | .serDur _ | .devRxdone _ _ _ | .devTxdone _ | .devSignal | .netArrive _ _ => none

/-- The operation's trace begins with two head bytes, and the first carries its row's number. -/
def Code.Statement (i : Instr) : Prop :=
  ∃ b0 b1 r, encode i = b0 :: b1 :: r ∧ ∀ m, tableMatch i = some m → b0.toNat % 16 = m

theorem Code.crcInit : Code.Statement .crcInit := ⟨_, _, _, rfl, fun _ h => by cases h; rfl⟩
theorem Code.crcLoad (b : Byte) : Code.Statement (.crcLoad b) := ⟨_, _, _, rfl, fun _ h => by cases h; rfl⟩
theorem Code.crcBit : Code.Statement .crcBit := ⟨_, _, _, rfl, fun _ h => by cases h; rfl⟩
theorem Code.crcByte (b : Byte) : Code.Statement (.crcByte b) := ⟨_, _, _, rfl, fun _ h => by cases h; rfl⟩
theorem Code.crc16 (bs : List Byte) : Code.Statement (.crc16 bs) := ⟨_, _, _, rfl, fun _ h => by cases h; rfl⟩
theorem Code.decStart : Code.Statement .decStart := ⟨_, _, _, rfl, fun _ h => by cases h; rfl⟩
theorem Code.decShort (raw : Byte) : Code.Statement (.decShort raw) := ⟨_, _, _, rfl, fun _ h => by cases h⟩
theorem Code.decSingle (raw : Byte) : Code.Statement (.decSingle raw) := ⟨_, _, _, rfl, fun _ h => by cases h⟩
theorem Code.decAmbig (raw : Byte) : Code.Statement (.decAmbig raw) := ⟨_, _, _, rfl, fun _ h => by cases h⟩
theorem Code.decDouble (raw : Byte) : Code.Statement (.decDouble raw) := ⟨_, _, _, rfl, fun _ h => by cases h⟩
theorem Code.decLong (raw : Byte) : Code.Statement (.decLong raw) := ⟨_, _, _, rfl, fun _ h => by cases h⟩
theorem Code.decParity : Code.Statement .decParity := ⟨_, _, _, rfl, fun _ h => by cases h; rfl⟩
theorem Code.decPair1 : Code.Statement .decPair1 := ⟨_, _, _, rfl, fun _ h => by cases h; rfl⟩
theorem Code.decPair0 : Code.Statement .decPair0 := ⟨_, _, _, rfl, fun _ h => by cases h; rfl⟩
theorem Code.decPairf00 : Code.Statement .decPairf00 := ⟨_, _, _, rfl, fun _ h => by cases h; rfl⟩
theorem Code.decPairf11 : Code.Statement .decPairf11 := ⟨_, _, _, rfl, fun _ h => by cases h; rfl⟩
theorem Code.decByte : Code.Statement .decByte := ⟨_, _, _, rfl, fun _ h => by cases h; rfl⟩
theorem Code.decOvf : Code.Statement .decOvf := ⟨_, _, _, rfl, fun _ h => by cases h; rfl⟩
theorem Code.decAlign : Code.Statement .decAlign := ⟨_, _, _, rfl, fun _ h => by cases h; rfl⟩
theorem Code.decRunt : Code.Statement .decRunt := ⟨_, _, _, rfl, fun _ h => by cases h; rfl⟩
theorem Code.decCheck : Code.Statement .decCheck := ⟨_, _, _, rfl, fun _ h => by cases h; rfl⟩
theorem Code.decDone : Code.Statement .decDone := ⟨_, _, _, rfl, fun _ h => by cases h; rfl⟩
theorem Code.dec : Code.Statement .dec := ⟨_, _, _, rfl, fun _ h => by cases h; rfl⟩
theorem Code.encCheck (q : Nat) : Code.Statement (.encCheck q) := ⟨_, _, _, rfl, fun _ h => by cases h; rfl⟩
theorem Code.encCrc (p : List Byte) : Code.Statement (.encCrc p) := ⟨_, _, _, rfl, fun _ h => by cases h; rfl⟩
theorem Code.encFill (p : List Byte) : Code.Statement (.encFill p) := ⟨_, _, _, rfl, fun _ h => by cases h; rfl⟩
theorem Code.enc (p : List Byte) : Code.Statement (.enc p) := ⟨_, _, _, rfl, fun _ h => by cases h; rfl⟩
theorem Code.serLevels (w : List Byte) : Code.Statement (.serLevels w) := ⟨_, _, _, rfl, fun _ h => by cases h⟩
theorem Code.serDur (h : List Bool) : Code.Statement (.serDur h) := ⟨_, _, _, rfl, fun _ h => by cases h⟩
theorem Code.arbBoot : Code.Statement .arbBoot := ⟨_, _, _, rfl, fun _ h => by cases h; rfl⟩
theorem Code.arbArm : Code.Statement .arbArm := ⟨_, _, _, rfl, fun _ h => by cases h; rfl⟩
theorem Code.arbWait : Code.Statement .arbWait := ⟨_, _, _, rfl, fun _ h => by cases h; rfl⟩
theorem Code.arbTick : Code.Statement .arbTick := ⟨_, _, _, rfl, fun _ h => by cases h; rfl⟩
theorem Code.arbAck : Code.Statement .arbAck := ⟨_, _, _, rfl, fun _ h => by cases h; rfl⟩
theorem Code.arbRxtest : Code.Statement .arbRxtest := ⟨_, _, _, rfl, fun _ h => by cases h; rfl⟩
theorem Code.arbRxstatus : Code.Statement .arbRxstatus := ⟨_, _, _, rfl, fun _ h => by cases h; rfl⟩
theorem Code.arbRxtrunc : Code.Statement .arbRxtrunc := ⟨_, _, _, rfl, fun _ h => by cases h; rfl⟩
theorem Code.arbRxcopy : Code.Statement .arbRxcopy := ⟨_, _, _, rfl, fun _ h => by cases h; rfl⟩
theorem Code.arbRxrelease : Code.Statement .arbRxrelease := ⟨_, _, _, rfl, fun _ h => by cases h; rfl⟩
theorem Code.arbRxdecode : Code.Statement .arbRxdecode := ⟨_, _, _, rfl, fun _ h => by cases h; rfl⟩
theorem Code.arbTxdone : Code.Statement .arbTxdone := ⟨_, _, _, rfl, fun _ h => by cases h; rfl⟩
theorem Code.arbTxtest : Code.Statement .arbTxtest := ⟨_, _, _, rfl, fun _ h => by cases h; rfl⟩
theorem Code.arbTxowner : Code.Statement .arbTxowner := ⟨_, _, _, rfl, fun _ h => by cases h; rfl⟩
theorem Code.arbTxfill : Code.Statement .arbTxfill := ⟨_, _, _, rfl, fun _ h => by cases h; rfl⟩
theorem Code.arbTxrelease : Code.Statement .arbTxrelease := ⟨_, _, _, rfl, fun _ h => by cases h; rfl⟩
theorem Code.devRxdone (d : List Byte) (st : Word16) (t : Bool) : Code.Statement (.devRxdone d st t) := ⟨_, _, _, rfl, fun _ h => by cases h⟩
theorem Code.devTxdone (st : Word16) : Code.Statement (.devTxdone st) := ⟨_, _, _, rfl, fun _ h => by cases h⟩
theorem Code.devSignal : Code.Statement .devSignal := ⟨_, _, _, rfl, fun _ h => by cases h⟩
theorem Code.netArrive (g : Datagram) (lost : Bool) : Code.Statement (.netArrive g lost) := ⟨_, _, _, rfl, fun _ h => by cases h⟩
theorem Code.rlyIn (f : List Byte) : Code.Statement (.rlyIn f) := ⟨_, _, _, rfl, fun _ h => by cases h; rfl⟩
theorem Code.rlyOut (g : Datagram) : Code.Statement (.rlyOut g) := ⟨_, _, _, rfl, fun _ h => by cases h; rfl⟩

end Sys2Proof.Laws
end

