-- ==== Sys2Proof/Laws/State.lean ====
section
/-! SUPPORT. What each named update of the state leaves in each field, so that no proof unfolds a record update. -/

namespace Sys2Proof.Machine

variable (s : State)

/-! ## State.logEvent -/

@[simp] theorem State.logEvent_cfg (e : Event) : (s.logEvent e).cfg = s.cfg := rfl
@[simp] theorem State.logEvent_bootOk (e : Event) : (s.logEvent e).bootOk = s.bootOk := rfl
@[simp] theorem State.logEvent_hphase (e : Event) : (s.logEvent e).hphase = s.hphase := rfl
@[simp] theorem State.logEvent_crc (e : Event) : (s.logEvent e).crc = s.crc := rfl
@[simp] theorem State.logEvent_dec (e : Event) : (s.logEvent e).dec = s.dec := rfl
@[simp] theorem State.logEvent_enc (e : Event) : (s.logEvent e).enc = s.enc := rfl
@[simp] theorem State.logEvent_ifb (e : Event) : (s.logEvent e).ifb = s.ifb := rfl
@[simp] theorem State.logEvent_rbuf (e : Event) : (s.logEvent e).rbuf = s.rbuf := rfl
@[simp] theorem State.logEvent_wbuf (e : Event) : (s.logEvent e).wbuf = s.wbuf := rfl
@[simp] theorem State.logEvent_rxCopy (e : Event) : (s.logEvent e).rxCopy = s.rxCopy := rfl
@[simp] theorem State.logEvent_rxLen (e : Event) : (s.logEvent e).rxLen = s.rxLen := rfl
@[simp] theorem State.logEvent_irqPending (e : Event) : (s.logEvent e).irqPending = s.irqPending := rfl
@[simp] theorem State.logEvent_kickPending (e : Event) : (s.logEvent e).kickPending = s.kickPending := rfl
@[simp] theorem State.logEvent_devSigOwed (e : Event) : (s.logEvent e).devSigOwed = s.devSigOwed := rfl
@[simp] theorem State.logEvent_rxValid (e : Event) : (s.logEvent e).rxValid = s.rxValid := rfl
@[simp] theorem State.logEvent_txOutstanding (e : Event) : (s.logEvent e).txOutstanding = s.txOutstanding := rfl
@[simp] theorem State.logEvent_sockRegistered (e : Event) : (s.logEvent e).sockRegistered = s.sockRegistered := rfl
@[simp] theorem State.logEvent_wokeIrq (e : Event) : (s.logEvent e).wokeIrq = s.wokeIrq := rfl
@[simp] theorem State.logEvent_wokeSock (e : Event) : (s.logEvent e).wokeSock = s.wokeSock := rfl
@[simp] theorem State.logEvent_txDgram (e : Event) : (s.logEvent e).txDgram = s.txDgram := rfl
@[simp] theorem State.logEvent_netIn (e : Event) : (s.logEvent e).netIn = s.netIn := rfl
@[simp] theorem State.logEvent_netOut (e : Event) : (s.logEvent e).netOut = s.netOut := rfl
@[simp] theorem State.logEvent_log (e : Event) : (s.logEvent e).log = s.log ++ [e] := rfl
@[simp] theorem State.logEvent_progress (e : Event) : (s.logEvent e).progress = s.progress := rfl
@[simp] theorem State.logEvent_result (e : Event) : (s.logEvent e).result = s.result := rfl
@[simp] theorem State.logEvent_feed (e : Event) : (s.logEvent e).feed = s.feed := rfl

/-! ## State.goto -/

@[simp] theorem State.goto_cfg (p : HPhase) : (s.goto p).cfg = s.cfg := rfl
@[simp] theorem State.goto_bootOk (p : HPhase) : (s.goto p).bootOk = s.bootOk := rfl
@[simp] theorem State.goto_hphase (p : HPhase) : (s.goto p).hphase = p := rfl
@[simp] theorem State.goto_crc (p : HPhase) : (s.goto p).crc = s.crc := rfl
@[simp] theorem State.goto_dec (p : HPhase) : (s.goto p).dec = s.dec := rfl
@[simp] theorem State.goto_enc (p : HPhase) : (s.goto p).enc = s.enc := rfl
@[simp] theorem State.goto_ifb (p : HPhase) : (s.goto p).ifb = s.ifb := rfl
@[simp] theorem State.goto_rbuf (p : HPhase) : (s.goto p).rbuf = s.rbuf := rfl
@[simp] theorem State.goto_wbuf (p : HPhase) : (s.goto p).wbuf = s.wbuf := rfl
@[simp] theorem State.goto_rxCopy (p : HPhase) : (s.goto p).rxCopy = s.rxCopy := rfl
@[simp] theorem State.goto_rxLen (p : HPhase) : (s.goto p).rxLen = s.rxLen := rfl
@[simp] theorem State.goto_irqPending (p : HPhase) : (s.goto p).irqPending = s.irqPending := rfl
@[simp] theorem State.goto_kickPending (p : HPhase) : (s.goto p).kickPending = s.kickPending := rfl
@[simp] theorem State.goto_devSigOwed (p : HPhase) : (s.goto p).devSigOwed = s.devSigOwed := rfl
@[simp] theorem State.goto_rxValid (p : HPhase) : (s.goto p).rxValid = s.rxValid := rfl
@[simp] theorem State.goto_txOutstanding (p : HPhase) : (s.goto p).txOutstanding = s.txOutstanding := rfl
@[simp] theorem State.goto_sockRegistered (p : HPhase) : (s.goto p).sockRegistered = s.sockRegistered := rfl
@[simp] theorem State.goto_wokeIrq (p : HPhase) : (s.goto p).wokeIrq = s.wokeIrq := rfl
@[simp] theorem State.goto_wokeSock (p : HPhase) : (s.goto p).wokeSock = s.wokeSock := rfl
@[simp] theorem State.goto_txDgram (p : HPhase) : (s.goto p).txDgram = s.txDgram := rfl
@[simp] theorem State.goto_netIn (p : HPhase) : (s.goto p).netIn = s.netIn := rfl
@[simp] theorem State.goto_netOut (p : HPhase) : (s.goto p).netOut = s.netOut := rfl
@[simp] theorem State.goto_log (p : HPhase) : (s.goto p).log = s.log := rfl
@[simp] theorem State.goto_progress (p : HPhase) : (s.goto p).progress = s.progress := rfl
@[simp] theorem State.goto_result (p : HPhase) : (s.goto p).result = s.result := rfl
@[simp] theorem State.goto_feed (p : HPhase) : (s.goto p).feed = s.feed := rfl

/-! ## State.advance -/

@[simp] theorem State.advance_cfg (p : Progress) : (s.advance p).cfg = s.cfg := rfl
@[simp] theorem State.advance_bootOk (p : Progress) : (s.advance p).bootOk = s.bootOk := rfl
@[simp] theorem State.advance_hphase (p : Progress) : (s.advance p).hphase = s.hphase := rfl
@[simp] theorem State.advance_crc (p : Progress) : (s.advance p).crc = s.crc := rfl
@[simp] theorem State.advance_dec (p : Progress) : (s.advance p).dec = s.dec := rfl
@[simp] theorem State.advance_enc (p : Progress) : (s.advance p).enc = s.enc := rfl
@[simp] theorem State.advance_ifb (p : Progress) : (s.advance p).ifb = s.ifb := rfl
@[simp] theorem State.advance_rbuf (p : Progress) : (s.advance p).rbuf = s.rbuf := rfl
@[simp] theorem State.advance_wbuf (p : Progress) : (s.advance p).wbuf = s.wbuf := rfl
@[simp] theorem State.advance_rxCopy (p : Progress) : (s.advance p).rxCopy = s.rxCopy := rfl
@[simp] theorem State.advance_rxLen (p : Progress) : (s.advance p).rxLen = s.rxLen := rfl
@[simp] theorem State.advance_irqPending (p : Progress) : (s.advance p).irqPending = s.irqPending := rfl
@[simp] theorem State.advance_kickPending (p : Progress) : (s.advance p).kickPending = s.kickPending := rfl
@[simp] theorem State.advance_devSigOwed (p : Progress) : (s.advance p).devSigOwed = s.devSigOwed := rfl
@[simp] theorem State.advance_rxValid (p : Progress) : (s.advance p).rxValid = s.rxValid := rfl
@[simp] theorem State.advance_txOutstanding (p : Progress) : (s.advance p).txOutstanding = s.txOutstanding := rfl
@[simp] theorem State.advance_sockRegistered (p : Progress) : (s.advance p).sockRegistered = s.sockRegistered := rfl
@[simp] theorem State.advance_wokeIrq (p : Progress) : (s.advance p).wokeIrq = s.wokeIrq := rfl
@[simp] theorem State.advance_wokeSock (p : Progress) : (s.advance p).wokeSock = s.wokeSock := rfl
@[simp] theorem State.advance_txDgram (p : Progress) : (s.advance p).txDgram = s.txDgram := rfl
@[simp] theorem State.advance_netIn (p : Progress) : (s.advance p).netIn = s.netIn := rfl
@[simp] theorem State.advance_netOut (p : Progress) : (s.advance p).netOut = s.netOut := rfl
@[simp] theorem State.advance_log (p : Progress) : (s.advance p).log = s.log := rfl
@[simp] theorem State.advance_progress (p : Progress) : (s.advance p).progress = p := rfl
@[simp] theorem State.advance_result (p : Progress) : (s.advance p).result = s.result := rfl
@[simp] theorem State.advance_feed (p : Progress) : (s.advance p).feed = s.feed := rfl

/-! ## State.setDec -/

@[simp] theorem State.setDec_cfg (d : Decoder) : (s.setDec d).cfg = s.cfg := rfl
@[simp] theorem State.setDec_bootOk (d : Decoder) : (s.setDec d).bootOk = s.bootOk := rfl
@[simp] theorem State.setDec_hphase (d : Decoder) : (s.setDec d).hphase = s.hphase := rfl
@[simp] theorem State.setDec_crc (d : Decoder) : (s.setDec d).crc = s.crc := rfl
@[simp] theorem State.setDec_dec (d : Decoder) : (s.setDec d).dec = d := rfl
@[simp] theorem State.setDec_enc (d : Decoder) : (s.setDec d).enc = s.enc := rfl
@[simp] theorem State.setDec_ifb (d : Decoder) : (s.setDec d).ifb = s.ifb := rfl
@[simp] theorem State.setDec_rbuf (d : Decoder) : (s.setDec d).rbuf = s.rbuf := rfl
@[simp] theorem State.setDec_wbuf (d : Decoder) : (s.setDec d).wbuf = s.wbuf := rfl
@[simp] theorem State.setDec_rxCopy (d : Decoder) : (s.setDec d).rxCopy = s.rxCopy := rfl
@[simp] theorem State.setDec_rxLen (d : Decoder) : (s.setDec d).rxLen = s.rxLen := rfl
@[simp] theorem State.setDec_irqPending (d : Decoder) : (s.setDec d).irqPending = s.irqPending := rfl
@[simp] theorem State.setDec_kickPending (d : Decoder) : (s.setDec d).kickPending = s.kickPending := rfl
@[simp] theorem State.setDec_devSigOwed (d : Decoder) : (s.setDec d).devSigOwed = s.devSigOwed := rfl
@[simp] theorem State.setDec_rxValid (d : Decoder) : (s.setDec d).rxValid = s.rxValid := rfl
@[simp] theorem State.setDec_txOutstanding (d : Decoder) : (s.setDec d).txOutstanding = s.txOutstanding := rfl
@[simp] theorem State.setDec_sockRegistered (d : Decoder) : (s.setDec d).sockRegistered = s.sockRegistered := rfl
@[simp] theorem State.setDec_wokeIrq (d : Decoder) : (s.setDec d).wokeIrq = s.wokeIrq := rfl
@[simp] theorem State.setDec_wokeSock (d : Decoder) : (s.setDec d).wokeSock = s.wokeSock := rfl
@[simp] theorem State.setDec_txDgram (d : Decoder) : (s.setDec d).txDgram = s.txDgram := rfl
@[simp] theorem State.setDec_netIn (d : Decoder) : (s.setDec d).netIn = s.netIn := rfl
@[simp] theorem State.setDec_netOut (d : Decoder) : (s.setDec d).netOut = s.netOut := rfl
@[simp] theorem State.setDec_log (d : Decoder) : (s.setDec d).log = s.log := rfl
@[simp] theorem State.setDec_progress (d : Decoder) : (s.setDec d).progress = s.progress := rfl
@[simp] theorem State.setDec_result (d : Decoder) : (s.setDec d).result = s.result := rfl
@[simp] theorem State.setDec_feed (d : Decoder) : (s.setDec d).feed = s.feed := rfl

/-! ## State.setCrc -/

@[simp] theorem State.setCrc_cfg (c : CrcUnit) : (s.setCrc c).cfg = s.cfg := rfl
@[simp] theorem State.setCrc_bootOk (c : CrcUnit) : (s.setCrc c).bootOk = s.bootOk := rfl
@[simp] theorem State.setCrc_hphase (c : CrcUnit) : (s.setCrc c).hphase = s.hphase := rfl
@[simp] theorem State.setCrc_crc (c : CrcUnit) : (s.setCrc c).crc = c := rfl
@[simp] theorem State.setCrc_dec (c : CrcUnit) : (s.setCrc c).dec = s.dec := rfl
@[simp] theorem State.setCrc_enc (c : CrcUnit) : (s.setCrc c).enc = s.enc := rfl
@[simp] theorem State.setCrc_ifb (c : CrcUnit) : (s.setCrc c).ifb = s.ifb := rfl
@[simp] theorem State.setCrc_rbuf (c : CrcUnit) : (s.setCrc c).rbuf = s.rbuf := rfl
@[simp] theorem State.setCrc_wbuf (c : CrcUnit) : (s.setCrc c).wbuf = s.wbuf := rfl
@[simp] theorem State.setCrc_rxCopy (c : CrcUnit) : (s.setCrc c).rxCopy = s.rxCopy := rfl
@[simp] theorem State.setCrc_rxLen (c : CrcUnit) : (s.setCrc c).rxLen = s.rxLen := rfl
@[simp] theorem State.setCrc_irqPending (c : CrcUnit) : (s.setCrc c).irqPending = s.irqPending := rfl
@[simp] theorem State.setCrc_kickPending (c : CrcUnit) : (s.setCrc c).kickPending = s.kickPending := rfl
@[simp] theorem State.setCrc_devSigOwed (c : CrcUnit) : (s.setCrc c).devSigOwed = s.devSigOwed := rfl
@[simp] theorem State.setCrc_rxValid (c : CrcUnit) : (s.setCrc c).rxValid = s.rxValid := rfl
@[simp] theorem State.setCrc_txOutstanding (c : CrcUnit) : (s.setCrc c).txOutstanding = s.txOutstanding := rfl
@[simp] theorem State.setCrc_sockRegistered (c : CrcUnit) : (s.setCrc c).sockRegistered = s.sockRegistered := rfl
@[simp] theorem State.setCrc_wokeIrq (c : CrcUnit) : (s.setCrc c).wokeIrq = s.wokeIrq := rfl
@[simp] theorem State.setCrc_wokeSock (c : CrcUnit) : (s.setCrc c).wokeSock = s.wokeSock := rfl
@[simp] theorem State.setCrc_txDgram (c : CrcUnit) : (s.setCrc c).txDgram = s.txDgram := rfl
@[simp] theorem State.setCrc_netIn (c : CrcUnit) : (s.setCrc c).netIn = s.netIn := rfl
@[simp] theorem State.setCrc_netOut (c : CrcUnit) : (s.setCrc c).netOut = s.netOut := rfl
@[simp] theorem State.setCrc_log (c : CrcUnit) : (s.setCrc c).log = s.log := rfl
@[simp] theorem State.setCrc_progress (c : CrcUnit) : (s.setCrc c).progress = s.progress := rfl
@[simp] theorem State.setCrc_result (c : CrcUnit) : (s.setCrc c).result = s.result := rfl
@[simp] theorem State.setCrc_feed (c : CrcUnit) : (s.setCrc c).feed = s.feed := rfl

/-! ## State.setIfb -/

@[simp] theorem State.setIfb_cfg (b : Ifb) : (s.setIfb b).cfg = s.cfg := rfl
@[simp] theorem State.setIfb_bootOk (b : Ifb) : (s.setIfb b).bootOk = s.bootOk := rfl
@[simp] theorem State.setIfb_hphase (b : Ifb) : (s.setIfb b).hphase = s.hphase := rfl
@[simp] theorem State.setIfb_crc (b : Ifb) : (s.setIfb b).crc = s.crc := rfl
@[simp] theorem State.setIfb_dec (b : Ifb) : (s.setIfb b).dec = s.dec := rfl
@[simp] theorem State.setIfb_enc (b : Ifb) : (s.setIfb b).enc = s.enc := rfl
@[simp] theorem State.setIfb_ifb (b : Ifb) : (s.setIfb b).ifb = b := rfl
@[simp] theorem State.setIfb_rbuf (b : Ifb) : (s.setIfb b).rbuf = s.rbuf := rfl
@[simp] theorem State.setIfb_wbuf (b : Ifb) : (s.setIfb b).wbuf = s.wbuf := rfl
@[simp] theorem State.setIfb_rxCopy (b : Ifb) : (s.setIfb b).rxCopy = s.rxCopy := rfl
@[simp] theorem State.setIfb_rxLen (b : Ifb) : (s.setIfb b).rxLen = s.rxLen := rfl
@[simp] theorem State.setIfb_irqPending (b : Ifb) : (s.setIfb b).irqPending = s.irqPending := rfl
@[simp] theorem State.setIfb_kickPending (b : Ifb) : (s.setIfb b).kickPending = s.kickPending := rfl
@[simp] theorem State.setIfb_devSigOwed (b : Ifb) : (s.setIfb b).devSigOwed = s.devSigOwed := rfl
@[simp] theorem State.setIfb_rxValid (b : Ifb) : (s.setIfb b).rxValid = s.rxValid := rfl
@[simp] theorem State.setIfb_txOutstanding (b : Ifb) : (s.setIfb b).txOutstanding = s.txOutstanding := rfl
@[simp] theorem State.setIfb_sockRegistered (b : Ifb) : (s.setIfb b).sockRegistered = s.sockRegistered := rfl
@[simp] theorem State.setIfb_wokeIrq (b : Ifb) : (s.setIfb b).wokeIrq = s.wokeIrq := rfl
@[simp] theorem State.setIfb_wokeSock (b : Ifb) : (s.setIfb b).wokeSock = s.wokeSock := rfl
@[simp] theorem State.setIfb_txDgram (b : Ifb) : (s.setIfb b).txDgram = s.txDgram := rfl
@[simp] theorem State.setIfb_netIn (b : Ifb) : (s.setIfb b).netIn = s.netIn := rfl
@[simp] theorem State.setIfb_netOut (b : Ifb) : (s.setIfb b).netOut = s.netOut := rfl
@[simp] theorem State.setIfb_log (b : Ifb) : (s.setIfb b).log = s.log := rfl
@[simp] theorem State.setIfb_progress (b : Ifb) : (s.setIfb b).progress = s.progress := rfl
@[simp] theorem State.setIfb_result (b : Ifb) : (s.setIfb b).result = s.result := rfl
@[simp] theorem State.setIfb_feed (b : Ifb) : (s.setIfb b).feed = s.feed := rfl

/-! ## State.setResult -/

@[simp] theorem State.setResult_cfg (r : OpResult) : (s.setResult r).cfg = s.cfg := rfl
@[simp] theorem State.setResult_bootOk (r : OpResult) : (s.setResult r).bootOk = s.bootOk := rfl
@[simp] theorem State.setResult_hphase (r : OpResult) : (s.setResult r).hphase = s.hphase := rfl
@[simp] theorem State.setResult_crc (r : OpResult) : (s.setResult r).crc = s.crc := rfl
@[simp] theorem State.setResult_dec (r : OpResult) : (s.setResult r).dec = s.dec := rfl
@[simp] theorem State.setResult_enc (r : OpResult) : (s.setResult r).enc = s.enc := rfl
@[simp] theorem State.setResult_ifb (r : OpResult) : (s.setResult r).ifb = s.ifb := rfl
@[simp] theorem State.setResult_rbuf (r : OpResult) : (s.setResult r).rbuf = s.rbuf := rfl
@[simp] theorem State.setResult_wbuf (r : OpResult) : (s.setResult r).wbuf = s.wbuf := rfl
@[simp] theorem State.setResult_rxCopy (r : OpResult) : (s.setResult r).rxCopy = s.rxCopy := rfl
@[simp] theorem State.setResult_rxLen (r : OpResult) : (s.setResult r).rxLen = s.rxLen := rfl
@[simp] theorem State.setResult_irqPending (r : OpResult) : (s.setResult r).irqPending = s.irqPending := rfl
@[simp] theorem State.setResult_kickPending (r : OpResult) : (s.setResult r).kickPending = s.kickPending := rfl
@[simp] theorem State.setResult_devSigOwed (r : OpResult) : (s.setResult r).devSigOwed = s.devSigOwed := rfl
@[simp] theorem State.setResult_rxValid (r : OpResult) : (s.setResult r).rxValid = s.rxValid := rfl
@[simp] theorem State.setResult_txOutstanding (r : OpResult) : (s.setResult r).txOutstanding = s.txOutstanding := rfl
@[simp] theorem State.setResult_sockRegistered (r : OpResult) : (s.setResult r).sockRegistered = s.sockRegistered := rfl
@[simp] theorem State.setResult_wokeIrq (r : OpResult) : (s.setResult r).wokeIrq = s.wokeIrq := rfl
@[simp] theorem State.setResult_wokeSock (r : OpResult) : (s.setResult r).wokeSock = s.wokeSock := rfl
@[simp] theorem State.setResult_txDgram (r : OpResult) : (s.setResult r).txDgram = s.txDgram := rfl
@[simp] theorem State.setResult_netIn (r : OpResult) : (s.setResult r).netIn = s.netIn := rfl
@[simp] theorem State.setResult_netOut (r : OpResult) : (s.setResult r).netOut = s.netOut := rfl
@[simp] theorem State.setResult_log (r : OpResult) : (s.setResult r).log = s.log := rfl
@[simp] theorem State.setResult_progress (r : OpResult) : (s.setResult r).progress = s.progress := rfl
@[simp] theorem State.setResult_result (r : OpResult) : (s.setResult r).result = r := rfl
@[simp] theorem State.setResult_feed (r : OpResult) : (s.setResult r).feed = s.feed := rfl

/-! ## State.broadcast -/

@[simp] theorem State.broadcast_cfg (g : Datagram) : (s.broadcast g).cfg = s.cfg := rfl
@[simp] theorem State.broadcast_bootOk (g : Datagram) : (s.broadcast g).bootOk = s.bootOk := rfl
@[simp] theorem State.broadcast_hphase (g : Datagram) : (s.broadcast g).hphase = s.hphase := rfl
@[simp] theorem State.broadcast_crc (g : Datagram) : (s.broadcast g).crc = s.crc := rfl
@[simp] theorem State.broadcast_dec (g : Datagram) : (s.broadcast g).dec = s.dec := rfl
@[simp] theorem State.broadcast_enc (g : Datagram) : (s.broadcast g).enc = s.enc := rfl
@[simp] theorem State.broadcast_ifb (g : Datagram) : (s.broadcast g).ifb = s.ifb := rfl
@[simp] theorem State.broadcast_rbuf (g : Datagram) : (s.broadcast g).rbuf = s.rbuf := rfl
@[simp] theorem State.broadcast_wbuf (g : Datagram) : (s.broadcast g).wbuf = s.wbuf := rfl
@[simp] theorem State.broadcast_rxCopy (g : Datagram) : (s.broadcast g).rxCopy = s.rxCopy := rfl
@[simp] theorem State.broadcast_rxLen (g : Datagram) : (s.broadcast g).rxLen = s.rxLen := rfl
@[simp] theorem State.broadcast_irqPending (g : Datagram) : (s.broadcast g).irqPending = s.irqPending := rfl
@[simp] theorem State.broadcast_kickPending (g : Datagram) : (s.broadcast g).kickPending = s.kickPending := rfl
@[simp] theorem State.broadcast_devSigOwed (g : Datagram) : (s.broadcast g).devSigOwed = s.devSigOwed := rfl
@[simp] theorem State.broadcast_rxValid (g : Datagram) : (s.broadcast g).rxValid = s.rxValid := rfl
@[simp] theorem State.broadcast_txOutstanding (g : Datagram) : (s.broadcast g).txOutstanding = s.txOutstanding := rfl
@[simp] theorem State.broadcast_sockRegistered (g : Datagram) : (s.broadcast g).sockRegistered = s.sockRegistered := rfl
@[simp] theorem State.broadcast_wokeIrq (g : Datagram) : (s.broadcast g).wokeIrq = s.wokeIrq := rfl
@[simp] theorem State.broadcast_wokeSock (g : Datagram) : (s.broadcast g).wokeSock = s.wokeSock := rfl
@[simp] theorem State.broadcast_txDgram (g : Datagram) : (s.broadcast g).txDgram = s.txDgram := rfl
@[simp] theorem State.broadcast_netIn (g : Datagram) : (s.broadcast g).netIn = s.netIn := rfl
@[simp] theorem State.broadcast_netOut (g : Datagram) : (s.broadcast g).netOut = s.netOut ++ [g] := rfl
@[simp] theorem State.broadcast_log (g : Datagram) : (s.broadcast g).log = s.log := rfl
@[simp] theorem State.broadcast_progress (g : Datagram) : (s.broadcast g).progress = s.progress := rfl
@[simp] theorem State.broadcast_result (g : Datagram) : (s.broadcast g).result = s.result := rfl
@[simp] theorem State.broadcast_feed (g : Datagram) : (s.broadcast g).feed = s.feed := rfl

/-! ## State.raiseDec (R148) -/

@[simp] theorem State.raiseDec_dec (e : DecError) :
    (s.raiseDec e).dec = { s.dec with result := .error e, phase := .idle } := rfl
@[simp] theorem State.raiseDec_cfg (e : DecError) : (s.raiseDec e).cfg = s.cfg := rfl
@[simp] theorem State.raiseDec_bootOk (e : DecError) : (s.raiseDec e).bootOk = s.bootOk := rfl
@[simp] theorem State.raiseDec_hphase (e : DecError) : (s.raiseDec e).hphase = s.hphase := rfl
@[simp] theorem State.raiseDec_crc (e : DecError) : (s.raiseDec e).crc = s.crc := rfl
@[simp] theorem State.raiseDec_enc (e : DecError) : (s.raiseDec e).enc = s.enc := rfl
@[simp] theorem State.raiseDec_ifb (e : DecError) : (s.raiseDec e).ifb = s.ifb := rfl
@[simp] theorem State.raiseDec_rbuf (e : DecError) : (s.raiseDec e).rbuf = s.rbuf := rfl
@[simp] theorem State.raiseDec_wbuf (e : DecError) : (s.raiseDec e).wbuf = s.wbuf := rfl
@[simp] theorem State.raiseDec_rxCopy (e : DecError) : (s.raiseDec e).rxCopy = s.rxCopy := rfl
@[simp] theorem State.raiseDec_rxLen (e : DecError) : (s.raiseDec e).rxLen = s.rxLen := rfl
@[simp] theorem State.raiseDec_irqPending (e : DecError) : (s.raiseDec e).irqPending = s.irqPending := rfl
@[simp] theorem State.raiseDec_kickPending (e : DecError) : (s.raiseDec e).kickPending = s.kickPending := rfl
@[simp] theorem State.raiseDec_devSigOwed (e : DecError) : (s.raiseDec e).devSigOwed = s.devSigOwed := rfl
@[simp] theorem State.raiseDec_rxValid (e : DecError) : (s.raiseDec e).rxValid = s.rxValid := rfl
@[simp] theorem State.raiseDec_txOutstanding (e : DecError) : (s.raiseDec e).txOutstanding = s.txOutstanding := rfl
@[simp] theorem State.raiseDec_sockRegistered (e : DecError) : (s.raiseDec e).sockRegistered = s.sockRegistered := rfl
@[simp] theorem State.raiseDec_wokeIrq (e : DecError) : (s.raiseDec e).wokeIrq = s.wokeIrq := rfl
@[simp] theorem State.raiseDec_wokeSock (e : DecError) : (s.raiseDec e).wokeSock = s.wokeSock := rfl
@[simp] theorem State.raiseDec_txDgram (e : DecError) : (s.raiseDec e).txDgram = s.txDgram := rfl
@[simp] theorem State.raiseDec_netIn (e : DecError) : (s.raiseDec e).netIn = s.netIn := rfl
@[simp] theorem State.raiseDec_netOut (e : DecError) : (s.raiseDec e).netOut = s.netOut := rfl
@[simp] theorem State.raiseDec_log (e : DecError) : (s.raiseDec e).log = s.log := rfl
@[simp] theorem State.raiseDec_progress (e : DecError) : (s.raiseDec e).progress = s.progress := rfl
@[simp] theorem State.raiseDec_result (e : DecError) : (s.raiseDec e).result = s.result := rfl
@[simp] theorem State.raiseDec_feed (e : DecError) : (s.raiseDec e).feed = s.feed := rfl

end Sys2Proof.Machine
end

