-- ==== Sys2Proof/Tests/Slice0.lean ====
section
/-! SUPPORT. The model's own tests. Expected values are the spec's: its vectors (95_test_vectors.md) by their ids, the
examples of the rules, or the tables of 30_encoding.md. Then one witness for the hypotheses of each statement. -/

namespace Sys2Proof.Tests

open Sys2Proof Sys2Proof.Machine

/-! ## Well-formedness: an ill-formed term for each check -/

theorem test_wf_short : (Instr.decShort 60).wf = false ∧ (Instr.decShort 59).wf = true := by decide
theorem test_wf_single :
    (Instr.decSingle 59).wf = false ∧ (Instr.decSingle 115).wf = false ∧ (Instr.decSingle 60).wf = true := by decide
theorem test_wf_ambig :
    (Instr.decAmbig 114).wf = false ∧ (Instr.decAmbig 140).wf = false ∧ (Instr.decAmbig 139).wf = true := by decide
theorem test_wf_double :
    (Instr.decDouble 139).wf = false ∧ (Instr.decDouble 200).wf = false ∧ (Instr.decDouble 199).wf = true := by decide
theorem test_wf_long : (Instr.decLong 199).wf = false ∧ (Instr.decLong 200).wf = true := by decide
theorem test_wf_frame_without_crc : (Instr.rlyIn [0x80]).wf = false ∧ (Instr.rlyIn [0x80, 0x05]).wf = true := by decide
theorem test_wf_count : (Instr.encCheck (2 ^ 32)).wf = false ∧ (Instr.encCheck (2 ^ 32 - 1)).wf = true := by decide
/-- Every sequence operand of 2^32 elements or more is refused. -/
theorem test_wf_long_sequences (bs : List Byte) (fs : List Bool) (t st) (hb : ¬bs.length < 2 ^ 32) (hf : ¬fs.length < 2 ^ 32) :
    (Instr.crc16 bs).wf = false ∧ (Instr.encCrc bs).wf = false ∧ (Instr.encFill bs).wf = false ∧
    (Instr.enc bs).wf = false ∧ (Instr.serLevels bs).wf = false ∧ (Instr.serDur fs).wf = false ∧
    (Instr.devRxdone bs st t).wf = false ∧ (Instr.netArrive bs t).wf = false ∧ (Instr.rlyOut bs).wf = false ∧
    (Instr.rlyIn bs).wf = false := by simp only [Instr.wf, countFits, hb, hf, decide_false, Bool.false_and, and_self]

/-! ## Decoding: a word for every operation, written from R92, R94 and R104 and the trace format of log entry 1 -/

/-- The bytes are exactly one operation, this one. -/
def reads (bs : List Byte) (i : Instr) : Bool := decide (decode bs = .ok (i, []))

theorem test_decode_crc :
    reads [0x20, 0x00] .crcInit ∧ reads [0x20, 0x01, 0, 0, 0, 2, 0x42, 0x43] (.crc16 [0x42, 0x43]) ∧
    reads [0x21, 0x00, 0x42] (.crcLoad 0x42) ∧ reads [0x21, 0x01, 0xFF] (.crcByte 0xFF) ∧
    reads [0x22, 0x00] .crcBit := by decide
theorem test_decode_samples :
    reads [0x40, 0] (.decShort 0) ∧ reads [0x40, 59] (.decShort 59) ∧ reads [0x40, 60] (.decSingle 60) ∧
    reads [0x40, 114] (.decSingle 114) ∧ reads [0x40, 115] (.decAmbig 115) ∧ reads [0x40, 139] (.decAmbig 139) ∧
    reads [0x40, 140] (.decDouble 140) ∧ reads [0x40, 199] (.decDouble 199) ∧ reads [0x40, 200] (.decLong 200) ∧
    reads [0x40, 255] (.decLong 255) := by decide
theorem test_decode_decoder :
    reads [0x10, 0x00] .decStart ∧ reads [0x10, 0x01] .dec ∧ reads [0x12, 0x00] .decParity ∧
    reads [0x13, 0x00] .decByte ∧ reads [0x13, 0x01] .decOvf ∧ reads [0x14, 0x00] .decAlign ∧
    reads [0x15, 0x00] .decRunt ∧ reads [0x15, 0x01] .decCheck ∧ reads [0x16, 0x00] .decDone ∧
    reads [0x30, 0x00] .decPairf00 ∧ reads [0x31, 0x00] .decPair0 ∧ reads [0x32, 0x00] .decPair1 ∧
    reads [0x33, 0x00] .decPairf11 := by decide
theorem test_decode_encoder :
    reads [0x0C, 0x01, 0, 0, 2, 0x34] (.encCheck 564) ∧ reads [0x0C, 0x02, 0, 0, 0, 1, 7] (.encCrc [7]) ∧
    reads [0x0C, 0x03, 0, 0, 0, 1, 7] (.encFill [7]) ∧ reads [0x0C, 0x04, 0, 0, 0, 0] (.enc []) ∧
    reads [0x50, 0x00, 0, 0, 0, 2, 0x80, 0x05] (.serLevels [0x80, 0x05]) ∧
    reads [0x50, 0x01, 0, 0, 0, 2, 1, 0] (.serDur [true, false]) := by decide
theorem test_decode_arbiter :
    reads [0x00, 0x00] .arbBoot ∧ reads [0x01, 0x00] .arbWait ∧ reads [0x01, 0x01] .arbTick ∧
    reads [0x02, 0x00] .arbAck ∧ reads [0x03, 0x00] .arbRxtest ∧ reads [0x04, 0x00] .arbRxstatus ∧
    reads [0x05, 0x00] .arbRxtrunc ∧ reads [0x06, 0x00] .arbRxcopy ∧ reads [0x07, 0x00] .arbRxrelease ∧
    reads [0x08, 0x00] .arbRxdecode ∧ reads [0x09, 0x00] .arbTxdone ∧ reads [0x0A, 0x00] .arbTxtest ∧
    reads [0x0B, 0x00] .arbTxowner ∧ reads [0x0C, 0x00] .arbTxfill ∧ reads [0x0D, 0x00] .arbTxrelease ∧
    reads [0x0E, 0x00] .arbArm := by decide
theorem test_decode_environment_and_relay :
    reads [0x60, 0x00, 0, 0, 0, 3, 0x53, 0x53, 0xA6, 0x00, 0x03, 1] (.devRxdone [83, 83, 166] 0x0003 true) ∧
    reads [0x60, 0x01, 0x01, 0x02] (.devTxdone 0x0102) ∧ reads [0x60, 0x02] .devSignal ∧
    reads [0x70, 0x00, 0, 0, 0, 2, 0x00, 0x00, 0] (.netArrive [0, 0] false) ∧
    reads [0x08, 0x01, 0, 0, 0, 2, 0x80, 0x05] (.rlyIn [0x80, 0x05]) ∧
    reads [0x0C, 0x05, 0, 0, 0, 1, 0x00] (.rlyOut [0x00]) := by decide
theorem test_decode_rejects :
    decode [0x0F, 0x00] = .error (.noOperation 0x0F 0x00) ∧ decode [0x17, 0x00] = .error (.noOperation 0x17 0x00) ∧
    decode [0x23, 0x00] = .error (.noOperation 0x23 0x00) ∧ decode [0x34, 0x00] = .error (.noOperation 0x34 0x00) ∧
    decode [0x21] = .error .truncated ∧ decode [0x0C, 0x04, 0, 0, 0, 2, 1] = .error .truncated ∧
    decode [0x50, 0x01, 0, 0, 0, 1, 2] = .error (.badFlag 2) ∧
    decode [0x08, 0x01, 0, 0, 0, 1, 0x80] = .error (.shortFrame 1) := by decide
theorem test_table_words :
    decodeTableWord 4 0x0 = some .arbBoot ∧ decodeTableWord 4 0x8 = some .arbRxdecode ∧
    decodeTableWord 4 0xE = some .arbArm ∧ decodeTableWord 4 0xF = none := by decide

/-! ## States for the tests -/

/-- The reset state in another Host phase. -/
def at_ (p : HPhase) : State := { State.reset with hphase := p }

/-- Host in ARB.RXDECODE's phase with these samples copied. -/
def copied (xs : List Byte) : State := { at_ .rxDecode with rxLen := xs.length, rxCopy := Memory.writeAll [] 0 xs }

/-- The decoder in a phase, with given LevelBits from index 0. -/
def decoding (p : DPhase) (l : List Bool) : State :=
  { at_ .rxDecode with dec :=
      { phase := p, level := true, k := 0, widthNs := 0, lLen := l.length, i := 1, acc := 0, nbits := 0, outLen := 0
        pairFaults := 0, comp := false, result := .error (.misaligned 0), levels := Memory.writeAll [] 0 l, out := [] } }

/-- The one sample about to be classified. -/
def classifying1 (raw : Byte) : State :=
  { decoding .classify [] with rxLen := 1, rxCopy := [(0, raw)] }

/-- The decoder with output bytes closed. -/
def closed (p : DPhase) (bs : List Byte) : State :=
  let s := decoding p []
  { s with
    crc := { reg := 0, data := 0, cnt := 0, phase := .idle }
    dec := { s.dec with out := Memory.writeAll [] 0 bs, outLen := bs.length } }

/-- The CRC unit set. -/
def unit (reg data : Word16) (cnt : BitVec 4) (p : CPhase) : State :=
  { State.reset with crc := { reg := reg, data := data, cnt := cnt, phase := p } }

/-- The operation answers a next state of which the test holds. -/
def after (o : Out) (f : State → Bool) : Bool :=
  match o with
  | .next t => f t
  | _ => false

/-- DV-2: the durations of the wire frame `80 05`. -/
def dv2 : List Byte :=
  [83, 83, 166] ++ List.replicate 22 83 ++ [166, 166, 166, 83]

/-! ## CRC unit -/

/-- CV-1. -/
theorem test_crc_init : after (exec .crcInit State.reset) (fun t => t.crc.reg == 0x8005) = true := by decide
/-- CV-2. -/
theorem test_crc_load :
    after (exec (.crcLoad 0x42) (unit 0x8005 1 7 .load)) (fun t => t.crc.data == 0x4200 && t.crc.cnt == 0) = true := by decide
/-- CV-3, CV-5, CV-6. -/
theorem test_crc_bit :
    after (exec .crcBit (unit 0x8005 0 0 .bit)) (fun t => t.crc.reg == 0x800F && t.crc.data == 0) = true ∧
    after (exec .crcBit (unit 0 0x8000 0 .bit)) (fun t => t.crc.reg == 0x8005) = true ∧
    after (exec .crcBit (unit 0xFFFF 0xFF00 7 .bit))
      (fun t => t.crc.reg == 0xFFFE && t.crc.data == 0xFE00 && t.crc.phase == .load) = true := by decide
/-- CV-11, CV-12. -/
theorem test_crc_byte :
    after (exec (.crcByte 0x42) (unit 0x8005 9 1 .load)) (fun t => t.crc.reg == 0x878F) = true ∧
    after (exec (.crcByte 0x43) (unit 0x878F 9 1 .load)) (fun t => t.crc.reg == 0x0D9B) = true := by decide
/-- CV-17, CV-22, CV-23; P6's end state. -/
theorem test_crc16 :
    after (exec (.crc16 [0x42, 0x43]) State.reset)
      (fun t => t.crc.reg == 0x0D9B && t.crc.data == 0 && t.crc.cnt == 8 && t.crc.phase == .idle) = true ∧
    after (exec (.crc16 [1, 2, 3]) State.reset) (fun t => t.crc.reg == 0x981D) = true ∧
    after (exec (.crc16 [0x42, 0x43, 0x0D, 0x9B]) State.reset) (fun t => t.crc.reg == 0) = true := by decide +kernel

-- P6's last line: "no byte remains: CRC16 returns, cphase = C_IDLE (0)".
theorem test_crc16_returns :
    after (step { unit 0x0D9B 0 8 .load with feed := [0xFE, 0x00] })
      (fun t => t.crc == { reg := 0x0D9B, data := 0, cnt := 8, phase := .idle } && t.hphase == .boot) = true ∧
    after (step { unit 0x0D9B 0 8 .load with feed := [] }) (fun t => t.crc.phase == .idle && t.hphase == .boot) = true := by
  decide

-- R201, R292: Host takes no step of the CRC family while it waits or is halted.
theorem test_crc_has_no_turn :
    exec .crcInit (at_ .wait) = .refused (.notEnabled "CRC.INIT") ∧
    exec (.crc16 []) (at_ .halt) = .refused (.notEnabled "CRC16") := ⟨rfl, rfl⟩

/-! ## Timing decoder -/

/-- R141. -/
theorem test_dec_start :
    after (exec .decStart (copied [83])) (fun t => t.dec.level && t.dec.i == 1 && t.dec.phase == .classify) = true ∧
    after (exec .decStart (copied [])) (fun t => t.dec.phase == .parity) = true := by decide
/-- DV-1. -/
theorem test_dec_short :
    after (exec (.decShort 59) (classifying1 59))
      (fun t => t.dec.result == .error (.widthTooShort 0 59) && t.dec.widthNs == 118 && t.dec.phase == .idle) = true := by decide
/-- DV-1, DV-18. -/
theorem test_dec_single :
    after (exec (.decSingle 114) (classifying1 114))
      (fun t => !t.dec.level && t.dec.levels == [(0, false)] && t.dec.lLen == 1 && t.dec.phase == .parity) = true := by decide
/-- DV-1. -/
theorem test_dec_ambig :
    after (exec (.decAmbig 139) (classifying1 139)) (fun t => t.dec.result == .error (.widthAmbiguous 0 139)) = true := by decide
/-- DV-1, DV-14 (d). -/
theorem test_dec_double :
    after (exec (.decDouble 140) (classifying1 140))
      (fun t => t.dec.levels == [(0, false), (1, false)] && t.dec.lLen == 2 && t.dec.k == 1) = true := by decide
/-- DV-1. -/
theorem test_dec_long :
    after (exec (.decLong 200) (classifying1 200)) (fun t => t.dec.result == .error (.widthTooLong 0 200)) = true := by decide
/-- R92: a sample takes no other row's operation. -/
theorem test_dec_wrong_row :
    exec (.decSingle 115) (classifying1 115) = .refused (.notEnabled "DEC.SINGLE") := by rfl
/-- R149's examples. -/
theorem test_dec_parity :
    after (exec .decParity (decoding .parity [false, true, false, true]))
      (fun t => t.dec.levels == [(0, false), (1, true), (2, false), (3, true), (4, true)] && t.dec.comp) = true ∧
    after (exec .decParity (decoding .parity [false, true, false]))
      (fun t => t.dec.lLen == 3 && !t.dec.comp && t.dec.phase == .pair) = true := by decide
/-- R150, R151. -/
theorem test_dec_pair1_pair0 :
    after (exec .decPair1 (decoding .pair [false, true, false]))
      (fun t => t.dec.acc == 1 && t.dec.nbits == 1 && t.dec.i == 3 && t.dec.phase == .align) = true ∧
    after (exec .decPair0 (decoding .pair [false, false, true, true, false]))
      (fun t => t.dec.acc == 0 && t.dec.nbits == 1 && t.dec.phase == .pair) = true := by decide
/-- DV-18, DV-12. -/
theorem test_dec_pairf :
    (let s := decoding .pair [false, false, false]
     after (exec .decPairf00 { s with dec := { s.dec with acc := 0xFF, nbits := 7 } })
      (fun t => t.dec.acc == 0xFE && t.dec.nbits == 8 && t.dec.pairFaults == 1 && t.dec.phase == .pair)) = true ∧
    (let s := decoding .pair [false, false, true, true, false, true, true]
     after (exec .decPairf11 { s with dec := { s.dec with i := 5 } })
      (fun t => t.log == [.pairFault 5 true] && t.dec.acc == 0)) = true := by decide
/-- DV-18, R154. -/
theorem test_dec_byte_ovf :
    (let s := decoding .pair [false]
     after (exec .decByte { s with dec := { s.dec with acc := 0x42, nbits := 8 } })
      (fun t => t.dec.out == [(0, 0x42)] && t.dec.outLen == 1 && t.dec.acc == 0 && t.dec.nbits == 0)) = true ∧
    (let s := decoding .pair [false]
     after (exec .decOvf { s with dec := { s.dec with nbits := 8, outLen := 564 } })
      (fun t => t.dec.result == .error (.overflow 564) && t.dec.phase == .idle)) = true := by decide
/-- DV-18's first vector, DV-9. DV-18's second vector (49 is misaligned) contradicts R156, since 49 mod 16 = 1 (log entry 24). -/
theorem test_dec_align :
    (let s := decoding .align [false]
     after (exec .decAlign { s with dec := { s.dec with i := 65 } }) (fun t => t.dec.phase == .check)) = true ∧
    (let s := decoding .align [false]
     after (exec .decAlign { s with dec := { s.dec with i := 63 } })
      (fun t => t.dec.result == .error (.misaligned 63))) = true := by decide
/-- DV-14 (e). -/
theorem test_dec_runt :
    after (exec .decRunt (closed .check [0x80])) (fun t => t.dec.result == .error (.frameTooShort 1)) = true := by decide
/-- R158's example, DV-8. -/
theorem test_dec_check :
    after (exec .decCheck (closed .check [0x42, 0x43, 0x0D, 0x9B])) (fun t => t.dec.phase == .done) = true ∧
    after (exec .decCheck (closed .check [0x42, 0x43, 0x0D, 0x9A]))
      (fun t => t.dec.result == .error (.crcMismatch 0x0D9B 0x0D9A)) = true := by decide +kernel
/-- R159's example. -/
theorem test_dec_done :
    after (exec .decDone (closed .done [0x42, 0x43, 0x0D, 0x9B]))
      (fun t => t.dec.result == .frame [0x42, 0x43, 0x0D, 0x9B] 0 false) = true := by decide
/-- DV-2. -/
theorem test_dec_smallest_frame :
    after (exec .dec (copied dv2)) (fun t => t.dec.result == .frame [0x80, 0x05] 0 false && t.log == []) = true := by
  decide +kernel
/-- DV-14 (c). -/
theorem test_dec_misaligned :
    after (exec .dec (copied [83, 83]))
      (fun t => t.dec.result == .error (.misaligned 3) && t.log == [.pairFault 1 true]) = true := by decide +kernel

/-! ## Encoder and serialiser -/

/-- Host inside ARB.TXFILL with this payload, its parts taken as far as `a`, the CRC unit free. -/
def encoding (a : Progress) (p : List Byte) : State :=
  { at_ .txFill with progress := a, txDgram := 0 :: 0 :: p, crc := { reg := 0, data := 0, cnt := 0, phase := .idle } }

/-- EV-7, EV-8. -/
theorem test_enc_check :
    after (exec (.encCheck 564) (encoding .unframed (List.replicate 564 0))) (fun t => t.result == .encError (.tooLong 564)) = true ∧
    after (exec (.encCheck 563) (encoding .unframed (List.replicate 563 0)))
      (fun t => t.result == .encError (.oddLength 563) && t.progress == .ended) = true := by decide +kernel
/-- R182's example. -/
theorem test_enc_crc :
    after (exec (.encCrc [0x42, 0x43]) { encoding .admitted [0x42, 0x43] with enc := { len := 2, crc := 0 } })
      (fun t => t.enc.crc == 0x0D9B) = true := by decide +kernel
/-- R183's example, over leftovers of an earlier frame. -/
theorem test_enc_fill :
    after (exec (.encFill [0x42, 0x43])
        { encoding .summed [0x42, 0x43] with enc := { len := 2, crc := 0x0D9B }, wbuf := [(3, 1), (4, 2)] })
      (fun t => t.wbuf == [(0, 0x42), (1, 0x43), (2, 0x0D), (3, 0x9B), (4, 2)] && t.ifb.wLength == 4) = true := by decide
/-- R183: "after ENC.CRC", so not straight after ENC.CHECK. -/
theorem test_enc_fill_needs_enc_crc :
    exec (.encFill [0x42, 0x43]) (encoding .admitted [0x42, 0x43]) = .refused (.notEnabled "ENC.FILL") := by rfl
/-- EV-3, EV-5. -/
theorem test_enc :
    after (exec (.enc [0xFF, 0xFF]) (encoding .unframed [0xFF, 0xFF]))
      (fun t => t.wbuf == [(0, 0xFF), (1, 0xFF), (2, 0x00), (3, 0x1A)] && t.ifb.wLength == 4 && t.result == .encOk) = true ∧
    after (exec (.enc [1, 2, 3]) (encoding .unframed [1, 2, 3]))
      (fun t => t.wbuf == [] && t.ifb.wLength == 0 && t.result == .encError (.oddLength 3)) = true := by decide +kernel
/-- EV-9. -/
theorem test_ser_levels :
    after (exec (.serLevels [0x05]) State.reset)
      (fun t => t.result == .levels [true, false, false, true, false, true, false, true, false, true, false, true,
        true, false, false, true, true, false]) = true := by decide
/-- EV-10; R186: the last half of a final 0 bit is dropped (the levels of `80`, DV-14 (e)). -/
theorem test_ser_dur :
    after (exec (.serDur (serialLevels [0x80, 0x05])) State.reset) (fun t => t.result == .durations dv2) = true ∧
    after (exec (.serDur (serialLevels [0x80])) State.reset)
      (fun t => t.result == .durations ([83, 83, 166] ++ List.replicate 12 83)) = true := by decide

/-! ## Host sequencer -/

/-- AV-1, AV-2. -/
theorem test_arb_boot :
    after (exec .arbBoot State.reset) (fun t => t.hphase == .arm && t.log == []) = true ∧
    after (exec .arbBoot { State.reset with bootOk := false }) (fun t => t.hphase == .halt && t.log == [.fatalStartup]) = true := by
  decide
/-- AV-3, AV-4. -/
theorem test_arb_arm :
    after (exec .arbArm (at_ .arm)) (fun t => t.sockRegistered && t.hphase == .wait) = true ∧
    after (exec .arbArm { at_ .arm with ifb := { (at_ .arm).ifb with wOwner := .device } })
      (fun t => !t.sockRegistered) = true := by decide
/-- AV-5, AV-6, AV-7. -/
theorem test_arb_wait :
    exec .arbWait { at_ .wait with sockRegistered := true } = .refused (.notEnabled "ARB.WAIT") ∧
    exec .arbWait { at_ .wait with netIn := [[0]] } = .refused (.notEnabled "ARB.WAIT") ∧
    after (exec .arbWait { at_ .wait with irqPending := true, sockRegistered := true, netIn := [[0]] })
      (fun t => t.wokeIrq && t.wokeSock && t.hphase == .ack) = true := ⟨rfl, rfl, by decide⟩
/-- AV-8. -/
theorem test_arb_tick :
    after (exec .arbTick { at_ .wait with sockRegistered := true, wokeIrq := true })
      (fun t => !t.wokeIrq && !t.wokeSock && t.log == [.tick] && t.hphase == .ack) = true := by decide
/-- AV-9, AV-28. -/
theorem test_arb_ack :
    after (exec .arbAck { at_ .ack with wokeIrq := true, irqPending := true })
      (fun t => !t.irqPending && t.hphase == .rxTest) = true ∧
    signalDuringAck { at_ .ack with wokeIrq := true, irqPending := true, devSigOwed := true } = true := by decide
/-- AV-11. -/
theorem test_arb_rxtest :
    after (exec .arbRxtest (at_ .rxTest)) (fun t => t.hphase == .txDone) = true := by decide

/-- Host owns Receive. -/
def received (p : HPhase) (st : Word16) (n : Word32) : State :=
  { at_ p with ifb := { (at_ p).ifb with rOwner := .host, rStatus := st, rReceivedLength := n } }

/-- AV-14, AV-16. -/
theorem test_arb_rxstatus :
    after (exec .arbRxstatus (received .rxStatus 0x0101 49)) (fun t => t.log == [.rxStatus 0x0101] && !t.rxValid) = true ∧
    after (exec .arbRxstatus (received .rxStatus 0x0001 12289)) (fun t => t.log == [.rxLength 12289] && !t.rxValid) = true := by
  decide
/-- R205, R297: the dump, and the good word (AV-12). -/
theorem test_arb_rxstatus_dump :
    (let s := received .rxStatus 0x0003 2
     after (exec .arbRxstatus { s with cfg := { s.cfg with diagDump := true }, rbuf := [(0, 7), (1, 8), (2, 9)] })
      (fun t => t.log == [.rxStatus 0x0003, .diagDump [7, 8]])) = true ∧
    after (exec .arbRxstatus (received .rxStatus 0x0001 12288)) (fun t => t.log == [] && t.rxValid) = true := by decide
/-- AV-17, AV-18. -/
theorem test_arb_rxtrunc :
    (let s := received .rxTrunc 0x0001 3
     after (exec .arbRxtrunc { s with rxValid := true, ifb := { s.ifb with rTruncated := true } })
      (fun t => t.log == [.rxTruncated 3] && !t.ifb.rTruncated && t.hphase == .rxCopy)) = true ∧
    after (exec .arbRxtrunc (received .rxTrunc 0x0003 3)) (fun t => t.log == [] && t.hphase == .rxRelease) = true := by decide
/-- R207. -/
theorem test_arb_rxcopy :
    after (exec .arbRxcopy { received .rxCopy 0x0001 2 with rbuf := [(0, 83), (1, 166), (2, 9)], rxCopy := [(2, 5)] })
      (fun t => t.rxLen == 2 && t.rxCopy == [(0, 83), (1, 166), (2, 5)]) = true := by decide
/-- AV-19; R208: the length and the status keep their values. -/
theorem test_arb_rxrelease :
    after (exec .arbRxrelease (received .rxRelease 0x0003 3))
      (fun t => t.ifb.rOwner == .device && t.hphase == .txDone && t.ifb.rReceivedLength == 3 && t.ifb.rStatus == 0x0003) = true := by
  decide
/-- P7's second frame; DV-14 (a). -/
theorem test_arb_rxdecode :
    after (exec .arbRxdecode (copied dv2)) (fun t => t.netOut == [[0, 0]] && t.log == [] && t.hphase == .txDone) = true ∧
    after (exec .arbRxdecode (copied [])) (fun t => t.netOut == [] && t.log == [.decode (.frameTooShort 0)]) = true := by
  decide +kernel
/-- AV-22, AV-23. -/
theorem test_arb_txdone :
    (let s := at_ .txDone
     after (exec .arbTxdone { s with txOutstanding := true, ifb := { s.ifb with wStatus := 0x0102 } })
      (fun t => t.log == [.txStatus 0x0102] && !t.txOutstanding)) = true ∧
    after (exec .arbTxdone (at_ .txDone)) (fun t => t.log == [] && t.hphase == .txTest) = true := by decide
/-- P2; R211. -/
theorem test_arb_txtest :
    after (exec .arbTxtest { at_ .txTest with wokeSock := true, netIn := [[1], [2]] })
      (fun t => t.txDgram == [1] && t.netIn == [[2]] && t.hphase == .txOwner) = true ∧
    after (exec .arbTxtest { at_ .txTest with netIn := [[1]] }) (fun t => t.netIn == [[1]] && t.hphase == .arm) = true := by
  decide
/-- AV-24. -/
theorem test_arb_txowner :
    (let s := at_ .txOwner
     after (exec .arbTxowner { s with ifb := { s.ifb with wOwner := .device }, txDgram := [0x00, 0x01, 0xFF, 0xFF] })
      (fun t => t.log == [.ownership 4] && t.txDgram == [] && t.hphase == .arm && t.wbuf == [])) = true := by decide
/-- P2; RV-10. -/
theorem test_arb_txfill :
    after (exec .arbTxfill { at_ .txFill with txDgram := [0x00, 0x01, 0x42, 0x43] })
      (fun t => t.wbuf == [(0, 0x42), (1, 0x43), (2, 0x0D), (3, 0x9B)] && t.ifb.wLength == 4 && t.hphase == .txRelease) = true ∧
    after (exec .arbTxfill { at_ .txFill with txDgram := [0x00, 0x02, 1, 2, 3] })
      (fun t => t.log == [.headerMismatch 2 3, .encode (.oddLength 3)] && t.hphase == .arm && t.wbuf == []) = true := by decide +kernel
/-- AV-25. -/
theorem test_arb_txrelease :
    after (exec .arbTxrelease (at_ .txRelease))
      (fun t => t.ifb.wOwner == .device && t.txOutstanding && t.kickPending && t.hphase == .arm) = true := by decide

/-! ## Environment and relay -/

/-- P5's reception; AV-26. -/
theorem test_dev_rxdone :
    after (exec (.devRxdone [83, 83, 166] 0x0003 true) State.reset)
      (fun t => t.ifb.rTruncated && t.ifb.rStatus == 0x0003 && t.ifb.rReceivedLength == 3 && t.ifb.rOwner == .host &&
        t.rbuf == [(0, 83), (1, 83), (2, 166)] && t.devSigOwed && !t.irqPending) = true ∧
    exec (.devRxdone [] 0 false) (received .wait 0 0) = .refused (.notEnabled "DEV.RXDONE") := ⟨by decide, rfl⟩
/-- P2's completion; AV-27. -/
theorem test_dev_txdone :
    (let s := at_ .wait
     after (exec (.devTxdone 0x0002) { s with ifb := { s.ifb with wOwner := .device }, kickPending := true })
      (fun t => t.ifb.wStatus == 0x0002 && t.ifb.wOwner == .host && !t.kickPending && t.devSigOwed)) = true ∧
    exec (.devTxdone 0) (at_ .wait) = .refused (.notEnabled "DEV.TXDONE") := ⟨by decide, rfl⟩
/-- R217. -/
theorem test_dev_signal :
    after (exec .devSignal { at_ .wait with devSigOwed := true }) (fun t => t.irqPending && !t.devSigOwed) = true := by decide
/-- R218. -/
theorem test_net_arrive :
    after (exec (.netArrive [2] false) { at_ .wait with netIn := [[1]] }) (fun t => t.netIn == [[1], [2]]) = true ∧
    after (exec (.netArrive [2] true) { at_ .wait with netIn := [[1]] }) (fun t => t.netIn == [[1]]) = true := by decide

/-- DEC has returned this frame. -/
def decoded (f : List Byte) : State :=
  let s := decoding .idle []
  { s with progress := .decoding, dec := { s.dec with result := .frame f 0 false } }

/-- RV-1, RV-4. -/
theorem test_rly_in :
    after (exec (.rlyIn [0x42, 0x43, 0x0D, 0x9B]) (decoded [0x42, 0x43, 0x0D, 0x9B]))
      (fun t => t.netOut == [[0x00, 0x01, 0x42, 0x43]]) = true ∧
    after (exec (.rlyIn [1, 2, 3, 0x98, 0x1D]) (decoded [1, 2, 3, 0x98, 0x1D]))
      (fun t => t.netOut == [] && t.result == .rlyError (.oddFrame 5)) = true := by decide
/-- R252: a frame leaves once; RLY.IN does not run twice, and ARB.RXDECODE sends nothing after it. -/
theorem test_rly_in_once :
    exec (.rlyIn [0x80, 0x05]) { decoded [0x80, 0x05] with progress := .relayed } = .refused (.notEnabled "RLY.IN") ∧
    after (exec .arbRxdecode { decoded [0x80, 0x05] with progress := .relayed })
      (fun t => t.netOut == [] && t.log == [] && t.hphase == .txDone) = true := ⟨rfl, by decide⟩
/-- RV-7, RV-8. -/
theorem test_rly_out :
    after (exec (.rlyOut [0x00, 0x05, 0x42, 0x43]) { at_ .txFill with txDgram := [0x00, 0x05, 0x42, 0x43] })
      (fun t => t.log == [.headerMismatch 5 2] && t.result == .payload [0x42, 0x43]) = true ∧
    after (exec (.rlyOut [0x00]) { at_ .txFill with txDgram := [0x00] }) (fun t => t.result == .rlyError (.malformed 1)) = true := by decide

/-! ## Handlers and step -/

/-- P3 (b). -/
theorem test_backpressure :
    after (Out.andThen (sendHandler [0x00, 0x01, 0x42, 0x43] (at_ .arm)) (sendHandler [0x00, 0x01, 0xFF, 0xFF]))
      (fun t => t.wbuf == [(0, 0x42), (1, 0x43), (2, 0x0D), (3, 0x9B)] && t.ifb.wLength == 4 &&
        t.ifb.wOwner == .device && t.log == [.ownership 4]) = true := by decide +kernel
/-- P5 from the receive handler on. -/
theorem test_receive_handler_recycles :
    (let s := received .rxTest 0x0003 3
     after (receiveHandler { s with ifb := { s.ifb with rTruncated := true } })
      (fun t => t.ifb.rOwner == .device && !t.ifb.rTruncated && t.log == [.rxStatus 0x0003, .rxTruncated 3] &&
        t.rxCopy == [] && t.hphase == .txDone)) = true := by decide
/-- R104: the trace moves past the operation. -/
theorem test_step_runs_the_trace :
    after (step { at_ .arm with feed := [0x0E, 0x00, 0x60, 0x02] })
      (fun t => t.hphase == .wait && t.feed == [0x60, 0x02]) = true := by decide
/-- R90: with no trace the phase selects. -/
theorem test_step_runs_the_loop :
    after (step State.reset) (fun t => t.hphase == .arm) = true ∧ step (at_ .halt) = .fault .halted := ⟨by decide, rfl⟩
/-- The host's word for ARB.RXTEST runs as the very next step. -/
theorem test_fetch_word :
    after (step (State.reset.withFetchWord 4 3)) (fun t => t.hphase == .txDone) = true := by decide
/-- R310. -/
theorem test_step_reset :
    after (step { at_ .wait with irqPending := true, feed := [0xFF, 0x00] })
      (fun t => t.hphase == .boot && !t.irqPending && !t.bootOk) = true := by decide

/-! ## Memory -/

theorem test_memory_canonical :
    Memory.write [(1, 5), (4, 6)] 3 (7 : Nat) = [(1, 5), (3, 7), (4, 6)] ∧
    Memory.write [(1, 5), (4, 6)] 4 (7 : Nat) = [(1, 5), (4, 7)] ∧ Memory.wf [(1, 5), (1, (6 : Nat))] = false := by decide
theorem test_memory_faults :
    loadCell .rbuf 4 [(1, 5)] 0 = (.error (.unwritten .rbuf 0) : Except Fault Nat) ∧
    loadCell .rbuf 4 [(4, 5)] 4 = (.error (.outsideRegion .rbuf 4) : Except Fault Nat) ∧
    storeSpan .wbuf 2 [] 1 [7, 8] = (.error (.outsideRegion .wbuf 2) : Except Fault (Memory Nat)) := ⟨rfl, rfl, rfl⟩

/-! ## Witnesses: for each statement, operands and a state that meet all of its hypotheses; for a statement with several
clauses, one for each clause at a boundary of its range. -/

theorem test_witness_ResetLeavesTheSpecifiedState :
    ({ State.reset with feed := [0xFF, 1] } : State).feed = 0xFF :: (if true then 1 else 0) :: [] := rfl
theorem test_witness_CrcPrimitives :
    CrcTurn (unit 0 0 0 .idle) ∧ CrcTurn (unit 0 0 0 .load) ∧ CrcTurn (unit 0 0 7 .bit) ∧
    ¬CrcTurn (at_ .halt) ∧ ¬CrcTurn (at_ .wait) ∧ (unit 0 0 0 .load).crc.phase ≠ .idle ∧
    (unit 0 0 0 .idle).crc.phase = .idle ∧ (unit 0 0 0 .load).crc.phase = .load ∧
    (unit 0 0 7 .bit).crc.phase = .bit ∧ (unit 0 0 7 .bit).crc.cnt < 8 := by unfold CrcTurn; decide
theorem test_witness_CrcCompositesFollowTheirClosedForms :
    CrcTurn (unit 0 0 0 .load) ∧ (unit 0 0 0 .load).crc.phase = .load ∧ CrcTurn (unit 0 0 0 .idle) ∧
    (unit 0 0 0 .idle).crc.phase = .idle ∧ CrcTurn (closed .check [0x80, 0x05]) ∧
    (closed .check [0x80, 0x05]).crc.phase = .idle ∧ CrcTurn (encoding .admitted [7, 7]) ∧
    (encoding .admitted [7, 7]).crc.phase = .idle := by unfold CrcTurn; decide
theorem test_witness_CrcResidueIsZero : CrcTurn State.reset ∧ State.reset.crc.phase = .idle := by unfold CrcTurn; decide
theorem test_witness_DecodeStarts :
    (copied []).dec.phase = .idle ∧ (copied []).hphase = .rxDecode ∧ (copied []).rxLen = 0 ∧ (copied [83]).rxLen = 1 ∧
    (copied []).progress = .fresh ∧ (copied [83]).progress = .fresh ∧ (copied [83]).dec.phase = .idle ∧ (copied [83]).hphase = .rxDecode := by decide

/-- What a sample about to be classified must meet, on its own row. -/
def classifies (raw : Byte) : Prop :=
  (classifying1 raw).hphase = .rxDecode ∧ (classifying1 raw).dec.phase = .classify ∧ (classifying1 raw).dec.k < (classifying1 raw).rxLen ∧
  (classifying1 raw).dec.k < (classifying1 raw).cfg.rCap ∧
  Memory.read (classifying1 raw).rxCopy (classifying1 raw).dec.k = some raw ∧
  (classifying1 raw).dec.lLen + 2 ≤ (classifying1 raw).cfg.lCap

theorem test_classifies (raw : Byte) : classifies raw := ⟨rfl, rfl, (by decide : 0 < 1), (by decide : 0 < 12288), rfl, (by decide : 0 + 2 ≤ 2 * 12288 + 1)⟩

/-- What a pair about to be consumed must meet. -/
def pairs (a b : Bool) : Prop :=
  (decoding .pair [false, a, b]).hphase = .rxDecode ∧ (decoding .pair [false, a, b]).dec.phase = .pair ∧ (decoding .pair [false, a, b]).dec.nbits < 8 ∧
  (decoding .pair [false, a, b]).dec.i + 1 < (decoding .pair [false, a, b]).dec.lLen ∧
  (decoding .pair [false, a, b]).dec.lLen ≤ (decoding .pair [false, a, b]).cfg.lCap ∧
  Memory.read (decoding .pair [false, a, b]).dec.levels 1 = some a ∧
  Memory.read (decoding .pair [false, a, b]).dec.levels 2 = some b

theorem test_pairs (a b : Bool) : pairs a b := ⟨rfl, rfl, (by decide : 0 < 8), (by decide : 1 + 1 < 3), (by decide : 3 ≤ 2 * 12288 + 1), rfl, rfl⟩

theorem test_witness_DataSelectsTheOperation :
    classifies 59 ∧ classifies 60 ∧ classifies 115 ∧ classifies 140 ∧ classifies 200 ∧
    pairs true false ∧ pairs false true ∧ pairs false false ∧ pairs true true :=
  ⟨test_classifies _, test_classifies _, test_classifies _, test_classifies _, test_classifies _,
    test_pairs _ _, test_pairs _ _, test_pairs _ _, test_pairs _ _⟩
theorem test_witness_IllegalSamplesRaise :
    (classifies 59 ∧ (59 : Byte).toNat ≤ 59) ∧
    (classifies 115 ∧ 115 ≤ (115 : Byte).toNat ∧ (115 : Byte).toNat ≤ 139) ∧
    (classifies 200 ∧ 200 ≤ (200 : Byte).toNat) :=
  ⟨⟨test_classifies _, by decide⟩, ⟨test_classifies _, by decide⟩, ⟨test_classifies _, by decide⟩⟩
theorem test_witness_LegalSamplesAppendLevels :
    (classifies 60 ∧ 60 ≤ (60 : Byte).toNat ∧ (60 : Byte).toNat ≤ 114) ∧
    (classifies 199 ∧ 140 ≤ (199 : Byte).toNat ∧ (199 : Byte).toNat ≤ 199) :=
  ⟨⟨test_classifies _, by decide⟩, ⟨test_classifies _, by decide⟩⟩
theorem test_witness_ParityIsRestored :
    (decoding .parity []).dec.phase = .parity ∧ (decoding .parity []).dec.lLen % 2 = 0 ∧
    (decoding .parity []).dec.lLen + 1 ≤ (decoding .parity []).cfg.lCap ∧
    (decoding .parity []).hphase = .rxDecode ∧ (decoding .parity [false]).hphase = .rxDecode ∧
    (decoding .parity [false]).dec.phase = .parity ∧ (decoding .parity [false]).dec.lLen % 2 = 1 ∧
    ([] : List Bool).length % 2 = 0 ∧ (closedFromLevels 2 []).1 = .error (.frameTooShort 0) := by decide
/-- A LevelSequence of even length that decodes to a frame: DV-5's 64 levels (SV-3). -/
theorem test_witness_ParityIsRestored_frame :
    (((serialLevels [0xFF, 0xFF, 0x00, 0x1A]).drop 1).dropLast).length % 2 = 0 ∧
    (closedFromLevels 4 (((serialLevels [0xFF, 0xFF, 0x00, 0x1A]).drop 1).dropLast)).1 =
      .frame [0xFF, 0xFF, 0x00, 0x1A] 0 true := by decide +kernel
theorem test_witness_PairsBecomeBits :
    pairs true false ∧ pairs false true ∧ pairs false false ∧ pairs true true :=
  ⟨test_pairs _ _, test_pairs _ _, test_pairs _ _, test_pairs _ _⟩

/-- A byte complete with `n` bytes already closed. -/
def full (n : Nat) : State :=
  let s := decoding .pair [false]
  { s with dec := { s.dec with nbits := 8, outLen := n } }

theorem test_witness_EighthBitClosesAByte :
    (full 563).hphase = .rxDecode ∧ (full 563).dec.phase = .pair ∧ (full 563).dec.nbits = 8 ∧ (full 563).dec.outLen < (full 563).cfg.maxFrameBytes := by decide
theorem test_witness_OverflowAlignmentAndLength :
    ((full 564).hphase = .rxDecode ∧ (decoding .align [false]).hphase = .rxDecode ∧
      (closed .check [0x80]).hphase = .rxDecode) ∧
    ((full 564).dec.phase = .pair ∧ (full 564).dec.nbits = 8 ∧ (full 564).dec.outLen = (full 564).cfg.maxFrameBytes) ∧
    ((decoding .align [false]).dec.phase = .align ∧ (decoding .align [false]).dec.i % 16 = 1) ∧
    (let s := decoding .align [false]
     (s.setDec { s.dec with i := 3 }).dec.phase = .align ∧ (s.setDec { s.dec with i := 3 }).dec.i % 16 ≠ 1) ∧
    ((closed .check [0x80]).dec.phase = .check ∧ (closed .check [0x80]).dec.outLen < 2) := by decide
/-- The smallest frame, and one whose checksum is wrong. -/
theorem test_witness_ChecksumDecides :
    (closed .check [0x80, 0x05]).hphase = .rxDecode ∧ (closed .check [0x80, 0x05]).dec.phase = .check ∧
    (closed .check [0x80, 0x05]).crc.phase = .idle ∧
    (closed .check [0x80, 0x05]).dec.outLen = ([] : List Byte).length + 2 ∧
    (closed .check [0x80, 0x05]).dec.outLen ≤ (closed .check [0x80, 0x05]).cfg.maxFrameBytes ∧
    Memory.holds (closed .check [0x80, 0x05]).dec.out ([] ++ [0x80, 0x05]) ∧
    crc16 [] = (0x80 : Byte) ++ (0x05 : Byte) ∧ crc16 [] ≠ (0x80 : Byte) ++ (0x06 : Byte) := by
  unfold Memory.holds; decide
theorem test_witness_DoneReturnsTheWholeFrame :
    (closed .done [0x80, 0x05]).hphase = .rxDecode ∧ (closed .done [0x80, 0x05]).dec.phase = .done ∧ (closed .done [0x80, 0x05]).dec.outLen = [(0x80 : Byte), 0x05].length ∧
    (closed .done [0x80, 0x05]).dec.outLen ≤ (closed .done [0x80, 0x05]).cfg.maxFrameBytes ∧
    Memory.holds (closed .done [0x80, 0x05]).dec.out [0x80, 0x05] := by
  unfold Memory.holds; decide

/-- DEC may start on any samples of DV-2's or DV-14's length. -/
theorem test_ready_dv2 : ReadyToDecode (copied dv2) dv2 :=
  ⟨rfl, rfl, rfl, rfl, ⟨rfl, by decide, by unfold Memory.holds; decide +kernel⟩, by decide⟩
theorem test_ready_empty : ReadyToDecode (copied []) [] :=
  ⟨rfl, rfl, rfl, rfl, ⟨rfl, by decide, by unfold Memory.holds; decide⟩, by decide⟩
theorem test_ready_double : ReadyToDecode (copied [166]) [166] :=
  ⟨rfl, rfl, rfl, rfl, ⟨rfl, by decide, by unfold Memory.holds; decide⟩, by decide⟩

theorem test_witness_DecodeIsItsClosedForm : ReadyToDecode (copied []) [] ∧ ReadyToDecode (copied dv2) dv2 :=
  ⟨test_ready_empty, test_ready_dv2⟩
/-- DV-14 (d). -/
theorem test_witness_MisalignedSequencesAreRejected :
    ReadyToDecode (copied [166]) [166] ∧ closedLevels true 0 [166] = .ok [false, false] ∧ (2 + 1) % 16 ≠ 1 ∧
    ∃ t, exec .dec (copied [166]) = .next t := by
  refine ⟨test_ready_double, by rfl, by decide, ?_⟩
  have h : after (exec .dec (copied [166])) (fun _ => true) = true := by decide +kernel
  cases ho : exec .dec (copied [166]) with
  | next t => exact ⟨t, rfl⟩
  | fault r => rw [ho] at h; cases h
  | refused r => rw [ho] at h; cases h
theorem test_witness_OnlySoundFramesAreRelayed :
    ReadyToDecode (copied dv2) dv2 ∧ ∃ t, exec .arbRxdecode (copied dv2) = .next t ∧ t.netOut = [[0, 0]] := by
  refine ⟨test_ready_dv2, ?_⟩
  have h : after (exec .arbRxdecode (copied dv2)) (fun t => t.netOut == [[0, 0]]) = true := by decide +kernel
  cases ho : exec .arbRxdecode (copied dv2) with
  | next t => rw [ho] at h; exact ⟨t, rfl, by simpa [after] using h⟩
  | fault r => rw [ho] at h; cases h
  | refused r => rw [ho] at h; cases h
theorem test_dv2_is_the_smallest_frame :
    serialDurations Config.default (serialLevels (wireFrame [])) = dv2 := by decide +kernel
theorem test_witness_EncodedFramesDecode :
    ([] : List Byte).length % 2 = 0 ∧ ([] : List Byte).length + 2 ≤ min (copied dv2).cfg.wCap (copied dv2).cfg.maxFrameBytes ∧
    60 ≤ (copied dv2).cfg.tHalfRaw.toNat ∧ (copied dv2).cfg.tHalfRaw.toNat ≤ 114 ∧
    140 ≤ (copied dv2).cfg.tFullRaw.toNat ∧ (copied dv2).cfg.tFullRaw.toNat ≤ 199 ∧
    ReadyToDecode (copied dv2) (serialDurations (copied dv2).cfg (serialLevels (wireFrame []))) := by
  refine ⟨by decide, by decide, by decide, by decide, by decide, by decide, ?_⟩
  have h : serialDurations (copied dv2).cfg (serialLevels (wireFrame [])) = dv2 := test_dv2_is_the_smallest_frame
  rw [h]; exact test_ready_dv2
theorem test_witness_EncoderAdmitsOrRefuses :
    (encoding .unframed [7]).hphase = .txFill ∧ (encoding .unframed [7]).progress = .unframed ∧
    (encoding .unframed [7]).txDgram = 0 :: 0 :: [7] ∧ [(7 : Byte)].length % 2 = 1 ∧
    ([(7 : Byte), 7].length % 2 = 0 ∧ [(7 : Byte), 7].length + 2 ≤ (encoding .unframed [7, 7]).cfg.wCap) ∧
    (let s := { encoding .unframed [7, 7] with cfg := { Config.default with wCap := 3 } }
     s.hphase = .txFill ∧ s.progress = .unframed ∧ s.txDgram = 0 :: 0 :: [7, 7] ∧
      s.cfg.wCap < [(7 : Byte), 7].length + 2) := by decide

/-- ENC.CHECK, and for `summed` ENC.CRC, has run on the payload `42 43`. -/
def encoding2 (a : Progress) : State := { encoding a [0x42, 0x43] with enc := { len := 2, crc := 0x0D9B } }

theorem test_witness_EncoderComputesTheChecksum :
    (encoding2 .admitted).hphase = .txFill ∧ (encoding2 .admitted).progress = .admitted ∧
    (encoding2 .admitted).txDgram = 0 :: 0 :: [0x42, 0x43] ∧ (encoding2 .admitted).enc.len = [(0x42 : Byte), 0x43].length ∧
    (encoding2 .admitted).crc.phase = .idle ∧ (encoding2 .unframed).progress ≠ .admitted := by decide
theorem test_witness_EncoderFillsTheBuffer :
    (encoding2 .summed).hphase = .txFill ∧ (encoding2 .summed).progress = .summed ∧
    (encoding2 .summed).txDgram = 0 :: 0 :: [0x42, 0x43] ∧ (encoding2 .summed).enc.len = [(0x42 : Byte), 0x43].length ∧
    [(0x42 : Byte), 0x43].length + 2 ≤ (encoding2 .summed).cfg.wCap ∧ (encoding2 .summed).ifb.wOwner = .host ∧
    (encoding2 .admitted).progress ≠ .summed := by decide
theorem test_witness_EncodePlacesTheWireFrame :
    (encoding .unframed []).hphase = .txFill ∧ (encoding .unframed []).progress = .unframed ∧
    (encoding .unframed []).txDgram = 0 :: 0 :: [] ∧ (encoding .unframed [7]).txDgram = 0 :: 0 :: [7] ∧
    (encoding .unframed []).crc.phase = .idle ∧ (encoding .unframed []).ifb.wOwner = .host ∧
    closedEnc 564 [7] = .error (.oddLength 1) ∧ closedEnc 564 [] = .ok [0x80, 0x05] :=
  ⟨rfl, rfl, rfl, rfl, rfl, rfl, rfl, rfl⟩
theorem test_witness_SerialLevelsAreManchester : [(0x80 : Byte)][0]? = some 0x80 ∧ 7 < 8 := by decide
theorem test_witness_SerialDurationsAreRuns :
    (∀ j (r q : Bool × Nat), [(false, 2), (true, 1)][j]? = some r → [(false, 2), (true, 1)][j + 1]? = some q → q.1 = !r.1) ∧
    (∀ r ∈ [(false, 2), (true, 1)], 1 ≤ r.2) ∧
    [true, false, false, true].drop 1 = [(false, 2), (true, 1)].flatMap (fun r : Bool × Nat => List.replicate r.2 r.1) := by
  refine ⟨?_, by decide, rfl⟩
  intro j r q h1 h2
  match j with
  | 0 => cases h1; cases h2; rfl
  | 1 => cases h2
  | _ + 2 => cases h1
theorem test_witness_BootArmAndTick :
    ((at_ .boot).hphase = .boot ∧ (at_ .boot).crc.phase = .idle ∧ (at_ .boot).bootOk = true) ∧
    (let s := { at_ .boot with bootOk := false }
     s.hphase = .boot ∧ s.crc.phase = .idle ∧ s.bootOk = false) ∧
    (at_ .arm).hphase = .arm ∧
    ((at_ .wait).hphase = .wait ∧ (at_ .wait).irqPending = false ∧ (at_ .wait).sockRegistered = false ∧ (at_ .wait).netIn = []) := by
  decide
theorem test_witness_WaitRecordsTheReadySources :
    ((at_ .wait).hphase = .wait ∧
      ¬((at_ .wait).irqPending = true ∨ ((at_ .wait).sockRegistered = true ∧ (at_ .wait).netIn ≠ []))) ∧
    (let s := { at_ .wait with irqPending := true }
     s.hphase = .wait ∧ s.irqPending = true) ∧
    (let s := { at_ .wait with sockRegistered := true, netIn := [[]] }
     s.hphase = .wait ∧ s.sockRegistered = true ∧ s.netIn ≠ []) := by decide
theorem test_witness_AcknowledgeClearsAndALaterSignalWins :
    (let s := { at_ .ack with devSigOwed := true }
     s.hphase = .ack ∧ s.devSigOwed = true) := by decide
theorem test_witness_ReceiveOwnershipIsTested :
    (received .rxTest 0 0).hphase = .rxTest ∧ (received .rxTest 0 0).ifb.rOwner = .host ∧
    (at_ .rxTest).hphase = .rxTest ∧ (at_ .rxTest).ifb.rOwner = .device := by decide
theorem test_witness_ReceiveStatusIsValidated :
    (let s := received .rxStatus 1 12288
     s.hphase = .rxStatus ∧ s.ifb.rOwner = .host ∧ s.ifb.rStatus = 0x0001 ∧
      s.ifb.rReceivedLength.toNat ≤ s.ifb.rMaxLength.toNat) ∧
    (let s := received .rxStatus 1 12289
     s.hphase = .rxStatus ∧ s.ifb.rOwner = .host ∧ s.ifb.rStatus = 0x0001 ∧
      s.ifb.rMaxLength.toNat < s.ifb.rReceivedLength.toNat) ∧
    (let s := received .rxStatus 3 0
     s.hphase = .rxStatus ∧ s.ifb.rOwner = .host ∧ s.ifb.rStatus ≠ 0x0001 ∧ s.cfg.diagDump = false) ∧
    (let s := { received .rxStatus 3 1 with cfg := { Config.default with diagDump := true }, rbuf := [(0, 7)] }
     s.hphase = .rxStatus ∧ s.ifb.rOwner = .host ∧ s.ifb.rStatus ≠ 0x0001 ∧ s.cfg.diagDump = true ∧
      [(7 : Byte)].length = min s.ifb.rReceivedLength.toNat s.ifb.rMaxLength.toNat ∧
      [(7 : Byte)].length ≤ s.cfg.rCap ∧ Memory.holds s.rbuf [7]) := by
  unfold Memory.holds; decide
theorem test_witness_ReceiveBufferIsClearedAndReturned :
    (let s := received .rxTrunc 1 0
     s.ifb.rOwner = .host ∧ s.hphase = .rxTrunc ∧ s.ifb.rTruncated = false) ∧
    (let s := received .rxTrunc 1 0
     let u := { s with ifb := { s.ifb with rTruncated := true } }
     u.ifb.rOwner = .host ∧ u.hphase = .rxTrunc ∧ u.ifb.rTruncated = true) ∧
    (received .rxRelease 1 0).ifb.rOwner = .host ∧ (received .rxRelease 1 0).hphase = .rxRelease := by decide
theorem test_witness_ReceivePayloadIsCopied :
    (received .rxCopy 1 0).hphase = .rxCopy ∧ (received .rxCopy 1 0).ifb.rOwner = .host ∧
    (received .rxCopy 1 0).ifb.rReceivedLength.toNat = ([] : List Byte).length ∧
    ([] : List Byte).length ≤ (received .rxCopy 1 0).cfg.rCap ∧ Memory.holds (received .rxCopy 1 0).rbuf [] := by
  unfold Memory.holds; decide
/-- A frame, an error; DV-17's odd frame is a third case, by its own samples. -/
theorem test_witness_ReceivedFrameIsDecodedAndRelayed :
    ReadyToDecode (copied dv2) dv2 ∧ (closedDec 564 dv2).1 = .frame [0x80, 0x05] 0 false ∧
    ReadyToDecode (copied []) [] ∧ (closedDec 564 []).1 = .error (.frameTooShort 0) ∧
    (closedDec 564 (serialDurations Config.default (serialLevels [1, 2, 3, 0x98, 0x1D]))).1 =
      .frame [1, 2, 3, 0x98, 0x1D] 0 false :=
  ⟨test_ready_dv2, by decide +kernel, test_ready_empty, by decide +kernel, by decide +kernel⟩
theorem test_witness_TransmitIsExaminedAndADatagramTaken :
    ((at_ .txDone).hphase = .txDone ∧ ¬((at_ .txDone).txOutstanding = true ∧ (at_ .txDone).ifb.wOwner = .host)) ∧
    (let s := { at_ .txDone with txOutstanding := true }
     s.hphase = .txDone ∧ s.txOutstanding = true ∧ s.ifb.wOwner = .host) ∧
    ((at_ .txTest).hphase = .txTest ∧ (at_ .txTest).wokeSock = false) ∧
    (let s := { at_ .txTest with wokeSock := true, netIn := [[1]] }
     s.hphase = .txTest ∧ s.wokeSock = true ∧ s.netIn = [1] :: []) := by decide
theorem test_witness_TransmitOwnerIsTested :
    ((at_ .txOwner).hphase = .txOwner ∧ (at_ .txOwner).ifb.wOwner = .host) ∧
    (let s := at_ .txOwner
     let u := { s with ifb := { s.ifb with wOwner := .device } }
     u.hphase = .txOwner ∧ u.ifb.wOwner = .device) := by decide
/-- Host about to fill Transmit with this datagram. -/
def filling (g : Datagram) : State := { encoding .fresh [] with txDgram := g }

theorem test_witness_DatagramIsEncoded :
    (let s := filling [0]
     s.hphase = .txFill ∧ s.crc.phase = .idle ∧ s.ifb.wOwner = .host ∧ s.txDgram.length < 2) ∧
    (let s := filling [0, 0]
     s.hphase = .txFill ∧ s.crc.phase = .idle ∧ s.ifb.wOwner = .host ∧ s.txDgram = 0 :: 0 :: [] ∧ 0 + 2 ≤ s.cfg.wCap) ∧
    (let s := filling [0, 0, 7]
     s.hphase = .txFill ∧ s.crc.phase = .idle ∧ s.ifb.wOwner = .host ∧ s.txDgram = 0 :: 0 :: [7] ∧
      [(7 : Byte)].length % 2 = 1) ∧
    (let s := { filling [0, 1, 7, 7] with cfg := { Config.default with wCap := 3 } }
     s.hphase = .txFill ∧ s.crc.phase = .idle ∧ s.ifb.wOwner = .host ∧ s.txDgram = 0 :: 1 :: [7, 7] ∧
      [(7 : Byte), 7].length % 2 = 0 ∧ s.cfg.wCap < [(7 : Byte), 7].length + 2) := by decide
theorem test_witness_TransmitBufferIsHandedOff :
    (at_ .txRelease).hphase = .txRelease ∧ (at_ .txRelease).ifb.wOwner = .host := by decide
theorem test_witness_DeviceDeliversAFrame :
    (let d := List.replicate 3 (83 : Byte)
     State.reset.ifb.rOwner = .device ∧ d.length ≤ State.reset.ifb.rMaxLength.toNat ∧ d.length ≤ State.reset.cfg.rCap) ∧
    (let s := { State.reset with ifb := { State.reset.ifb with rMaxLength := 0 } }
     s.ifb.rOwner = .device ∧ s.ifb.rMaxLength.toNat < [(7 : Byte)].length) := by decide
theorem test_witness_DeviceCompletesSignalsAndDatagramsArrive :
    (let s := { State.reset with ifb := { State.reset.ifb with wOwner := .device } }
     s.ifb.wOwner = .device) ∧
    (let s := { State.reset with devSigOwed := true }
     s.devSigOwed = true) := by decide
theorem test_witness_RelayFramesAndUnframes :
    ((decoded [0x80, 0x05]).hphase = .rxDecode ∧ (decoded [0x80, 0x05]).dec.phase = .idle ∧
      (decoded [0x80, 0x05]).progress = .decoding ∧
      (decoded [0x80, 0x05]).dec.result = .frame ([] ++ [0x80, 0x05]) 0 false) ∧
    ((decoded [7, 0x80, 0x05]).dec.result = .frame ([7] ++ [0x80, 0x05]) 0 false ∧ [(7 : Byte)].length % 2 = 1) ∧
    ((filling [0]).hphase = .txFill ∧ (filling [0]).progress = .fresh ∧ (filling [0]).txDgram.length < 2 ∧
      (filling [0, 1, 7, 8]).txDgram = 0 :: 1 :: [7, 8] ∧ (filling [0, 5, 7, 8]).txDgram = 0 :: 5 :: [7, 8] ∧
      2 * ((0 : Byte).toNat * 256 + (1 : Byte).toNat) = [(7 : Byte), 8].length ∧
      2 * ((0 : Byte).toNat * 256 + (5 : Byte).toNat) ≠ [(7 : Byte), 8].length) := by decide
theorem test_witness_RelayedFrameCrossesUnchanged :
    (564 - 2) / 2 < 2 ^ 16 ∧ (closedDec 564 dv2).1 = .frame [0x80, 0x05] 0 false ∧ relayIn [0x80, 0x05] = .ok [0, 0] ∧
    (filling [0, 0]).hphase = .txFill ∧ (filling [0, 0]).crc.phase = .idle ∧ (filling [0, 0]).ifb.wOwner = .host ∧
    (filling [0, 0]).txDgram = [0, 0] ∧ [(0x80 : Byte), 0x05].length ≤ (filling [0, 0]).cfg.wCap :=
  ⟨by decide, by decide +kernel, rfl, rfl, rfl, rfl, rfl, by decide⟩
theorem test_witness_BackpressureDropsTheSecondDatagram :
    (at_ .arm).ifb.wOwner = .host ∧ (at_ .arm).crc.phase = .idle ∧ [(0x42 : Byte), 0x43].length % 2 = 0 ∧
    [(0x42 : Byte), 0x43].length + 2 ≤ (at_ .arm).cfg.wCap := by decide
theorem test_witness_ReceiveHandlerReturnsTheBuffer :
    (received .rxTest 1 0).cfg.valid = true ∧
    (received .rxTest 1 0).ifb.rMaxLength = BitVec.ofNat 32 (received .rxTest 1 0).cfg.rCap ∧
    (received .rxTest 1 0).ifb.rOwner = .host ∧ (received .rxTest 1 0).dec.phase = .idle ∧
    (received .rxTest 1 0).crc.phase = .idle ∧
    Memory.written (received .rxTest 1 0).rbuf
      (min (received .rxTest 1 0).ifb.rReceivedLength.toNat (received .rxTest 1 0).cfg.rCap) :=
  ⟨by decide, rfl, rfl, rfl, rfl, fun j h => absurd h (by
    have : min (received .rxTest 1 0).ifb.rReceivedLength.toNat (received .rxTest 1 0).cfg.rCap = 0 := by decide
    omega)⟩
theorem test_witness_StepRunsTheSelectedOperation :
    (let s := { at_ .arm with feed := [0x0E, 0x00] }
     traceControl s.feed = none ∧ decode s.feed = .ok (.arbArm, [])) ∧
    (let s := { at_ .arm with feed := [0x0F, 0x00] }
     s.feed ≠ [] ∧ traceControl s.feed = none ∧ decode s.feed = .error (.noOperation 0x0F 0x00)) ∧
    (let s := { unit 0 0 8 .load with feed := [0xFE, 0x00] }
     s.feed = 0xFE :: 0x00 :: [] ∧ CrcTurn s ∧ s.crc.phase = .load) ∧
    ((unit 0 0 8 .load).feed = [] ∧ CrcTurn (unit 0 0 8 .load) ∧ (unit 0 0 8 .load).crc.phase = .load) ∧
    ((at_ .arm).feed = [] ∧ ¬(CrcTurn (at_ .arm) ∧ (at_ .arm).crc.phase = .load) ∧ select (at_ .arm) = .ok .arbArm) ∧
    ((at_ .halt).feed = [] ∧ (at_ .halt).hphase = .halt) ∧
    (CrcTurn (unit 0 0 7 .bit) ∧ (unit 0 0 7 .bit).crc.phase = .bit) := by
  unfold CrcTurn; decide
theorem test_witness_StepRunsTheSelectedOperation_loop :
    ((full 3).crc.phase ≠ .bit ∧ (full 3).hphase = .rxDecode ∧ (full 3).dec.phase ≠ .idle) ∧
    (let s := { at_ .wait with irqPending := true }
     s.crc.phase ≠ .bit ∧ s.dec.phase = .idle ∧ s.hphase = .wait ∧ SourceReady s) ∧
    ((at_ .wait).crc.phase ≠ .bit ∧ (at_ .wait).dec.phase = .idle ∧ (at_ .wait).hphase = .wait ∧
      ¬SourceReady (at_ .wait)) ∧
    ((at_ .rxDecode).crc.phase ≠ .bit ∧ (at_ .rxDecode).dec.phase = .idle ∧ (at_ .rxDecode).hphase = .rxDecode) := by
  unfold SourceReady; decide
theorem test_witness_DecodeUndoesEncode :
    (Instr.decShort 59).wf = true ∧ (Instr.rlyIn [0x80, 0x05]).wf = true ∧ (Instr.arbArm).wf = true := by decide
theorem test_witness_DecodedBytesAreTheEncoding :
    decode [0x40, 59, 0x99] = .ok (.decShort 59, [0x99]) ∧
    decode [0x70, 0x00, 0, 0, 0, 1, 7, 1] = .ok (.netArrive [7] true, []) := by decide

/-- A transmit is in flight and the Device's signal is pending: a state of the invariant that is not the reset state. -/
def inFlight (feed : List Byte) : State :=
  { at_ .wait with
    txOutstanding := true, irqPending := true, netIn := [[0, 0]], feed := feed
    ifb := { State.reset.ifb with wOwner := .device, wLength := 2 }
    wbuf := [(0, 0x80), (1, 0x05)] }

theorem test_inFlight_inv (feed : List Byte) : Inv (inFlight feed) where
  config := (by decide : Config.default.valid = true)
  memories := ⟨rfl, rfl, rfl, rfl, rfl⟩
  fields := ⟨rfl, rfl, rfl⟩
  ownership := by constructor <;> intro h <;> first | (cases h; done) | (intro h'; cases h')
  inFlight := ⟨fun _ => rfl, nofun, nofun⟩
  wakeup := ⟨nofun, nofun⟩
  payloads := ⟨nofun, (by rintro (⟨h, _⟩ | h) <;> cases h),
    fun _ => ⟨[], rfl, (by decide : 0 + 2 ≤ 564), (by unfold Memory.holds; decide : Memory.holds [(0, 0x80), (1, 0x05)] (wireFrame [])), rfl⟩⟩
  decoder := by
    constructor
    · intro h; exact absurd rfl h
    · intro h; exact absurd rfl h
    · rintro (h | h) <;> cases h
    · nofun
    · nofun
    · rintro (h | h | h | h) <;> cases h
    · nofun
  parts := by
    constructor
    · rintro (h | h) <;> cases h
    · intro h; exact absurd rfl h
    · nofun
    · rintro (h | h | h | h) <;> cases h
    · rintro (h | h | h) <;> cases h
    · intro h; exact absurd rfl h
  crcUnit := nofun

/-- The invariant while Host decodes an empty frame, Transmit its own: the other frames in flight. -/
theorem test_copied_inv : Inv (copied []) where
  config := (by decide : Config.default.valid = true)
  memories := ⟨rfl, rfl, rfl, rfl, rfl⟩
  fields := ⟨rfl, rfl, rfl⟩
  ownership := by constructor <;> intro h <;> first | (cases h; done) | (intro h'; cases h')
  inFlight := ⟨nofun, nofun, nofun⟩
  wakeup := ⟨nofun, nofun⟩
  payloads := ⟨nofun, fun _ => ⟨(by decide : 0 ≤ 12288), fun j h => absurd h (Nat.not_lt_zero j)⟩,
    by rintro (h | h) <;> cases h⟩
  decoder := by
    constructor
    · intro h; exact absurd rfl h
    · intro h; exact absurd rfl h
    · rintro (h | h) <;> cases h
    · nofun
    · nofun
    · rintro (h | h | h | h) <;> cases h
    · nofun
  parts := by
    constructor
    · rintro (h | h) <;> cases h
    · intro h; exact absurd rfl h
    · nofun
    · rintro (h | h | h | h) <;> cases h
    · rintro (h | h | h) <;> cases h
    · intro h; exact absurd rfl h
  crcUnit := nofun

/-- Some operation completes: the hypotheses of the statements over every operation. -/
theorem test_witness_operations :
    (∃ t, exec .arbTxrelease (at_ .txRelease) = .next t ∧ t.ifb.wOwner ≠ (at_ .txRelease).ifb.wOwner ∧ t.hphase ≠ .txRelease) ∧
    (∃ t, exec (.devRxdone [7] 1 false) State.reset = .next t ∧ t.rbuf ≠ State.reset.rbuf ∧ State.reset.ifb.rOwner = .device) :=
  ⟨⟨_, rfl, by decide, by decide⟩, ⟨_, rfl, by decide, rfl⟩⟩
theorem test_witness_EachFrameLeavesOnce :
    (∃ t, exec (.rlyIn [0x80, 0x05]) (decoded [0x80, 0x05]) = .next t ∧ t.netOut ≠ (decoded [0x80, 0x05]).netOut) ∧
    (let s := { decoded [0x80, 0x05] with progress := .relayed }
     s.hphase = .rxDecode ∧ s.progress = .relayed ∧ ∃ t, exec .arbRxdecode s = .next t) :=
  ⟨⟨_, rfl, by decide⟩, rfl, rfl, _, rfl⟩
/-- DEC of DV-2's samples returns a frame, and RLY.OUT's datagram is one ENC admits. -/
theorem test_witness_PartsMakeTheWhole :
    (ReadyToDecode (copied dv2) dv2 ∧ ∃ t, exec .dec (copied dv2) = .next t ∧ t.dec.result = .frame [0x80, 0x05] 0 false) ∧
    ((filling [0, 0]).hphase = .txFill ∧ (filling [0, 0]).progress = .fresh ∧ (filling [0, 0]).crc.phase = .idle ∧
      (filling [0, 0]).ifb.wOwner = .host ∧ (filling [0, 0]).txDgram = 0 :: 0 :: [] ∧ 0 + 2 ≤ (filling [0, 0]).cfg.wCap) := by
  refine ⟨⟨test_ready_dv2, ?_⟩, rfl, rfl, rfl, rfl, rfl, by decide⟩
  have h : after (exec .dec (copied dv2)) (fun t => t.dec.result == .frame [0x80, 0x05] 0 false) = true := by decide +kernel
  cases ho : exec .dec (copied dv2) with
  | next t => rw [ho] at h; exact ⟨t, rfl, by simpa [after] using h⟩
  | fault r => rw [ho] at h; cases h
  | refused r => rw [ho] at h; cases h
theorem test_witness_NoDatagramLeavesWhileInFlight :
    (Inv (inFlight []) ∧ (inFlight []).ifb.wOwner = .device ∧ (∀ b r, traceControl (inFlight []).feed ≠ some (.reset b, r)) ∧
      ∃ t, step (inFlight []) = .next t) ∧
    (¬((inFlight []).hphase = .rxRelease ∧ (inFlight []).rxValid = true) ∧ (inFlight []).hphase ≠ .rxDecode) ∧
    (Inv (copied []) ∧ (copied []).ifb.wOwner = .host ∧ (copied []).hphase = .rxDecode) :=
  ⟨⟨test_inFlight_inv _, rfl, nofun, _, rfl⟩, by decide, test_copied_inv, rfl, rfl⟩
theorem test_witness_StepsKeepTheInvariant :
    (Inv (inFlight [0x60, 0x01, 0, 2]) ∧ ∃ t, step (inFlight [0x60, 0x01, 0, 2]) = .next t ∧ t.ifb.wOwner = .host) ∧
    (MemoriesCanonical (inFlight []) ∧ ∃ t, step (inFlight []) = .next t) :=
  ⟨⟨test_inFlight_inv _, _, rfl, rfl⟩, (test_inFlight_inv _).memories, _, rfl⟩
theorem test_witness_ResetMeetsTheInvariant : Config.default.valid = true := by decide
theorem test_witness_HostIsNeverStuck :
    Inv (inFlight []) ∧ (inFlight []).feed = [] ∧ (inFlight []).hphase ≠ .halt := ⟨test_inFlight_inv _, rfl, by decide⟩
theorem test_witness_NoStepFaultsOrBreaksOwnership : Inv (inFlight []) := test_inFlight_inv _

end Sys2Proof.Tests
end

section
/-! PROOFS. A step of the decoder keeps all but the decoder, the CRC unit and the log, and lowers a rank; so DEC's fuel
suffices and a decode that answers ends in `D_IDLE` (R160). -/

namespace Sys2Proof.Machine

/-- An upper bound for the steps a decode of `m` samples still takes: a sample counts for itself and its two LevelBits, a
LevelBit for half a pair, a full `acc` for its byte, and each later phase for one. -/
def decRank (m : Nat) (d : Decoder) : Nat :=
  match d.phase with
  | .idle => 0
  | .done => 1
  | .check => 2
  | .align => 3
  | .pair => 4 + (d.lLen - d.i) + if d.nbits = 8 then 1 else 0
  | .parity => 7 + d.lLen
  | .classify => 7 + d.lLen + 3 * (m - d.k)

section Rank
variable {m : Nat} {d : Decoder}

theorem decRank_idle (h : d.phase = .idle) : decRank m d = 0 := by simp [decRank, h]
theorem decRank_done (h : d.phase = .done) : decRank m d = 1 := by simp [decRank, h]
theorem decRank_check (h : d.phase = .check) : decRank m d = 2 := by simp [decRank, h]
theorem decRank_align (h : d.phase = .align) : decRank m d = 3 := by simp [decRank, h]
theorem decRank_pair (h : d.phase = .pair) :
    decRank m d = 4 + (d.lLen - d.i) + if d.nbits = 8 then 1 else 0 := by simp [decRank, h]
theorem decRank_parity (h : d.phase = .parity) : decRank m d = 7 + d.lLen := by simp [decRank, h]
theorem decRank_classify (h : d.phase = .classify) : decRank m d = 7 + d.lLen + 3 * (m - d.k) := by simp [decRank, h]

theorem decRank_pos (h : d.phase ≠ .idle) : 0 < decRank m d := by
  cases hp : d.phase <;> simp_all [decRank]

/-- Where `next_pair_phase()` leads (R155), the rank is at most that of the pair phase. -/
theorem decRank_nextPairPhase_le (m : Nat) (d : Decoder) :
    decRank m { d with phase := nextPairPhase d } ≤ 4 + (d.lLen - d.i) + if d.nbits = 8 then 1 else 0 := by
  have hp : nextPairPhase d = .pair ∨ nextPairPhase d = .align := by
    unfold nextPairPhase; split_ifs <;> simp
  obtain hp | hp := hp
  · exact (decRank_pair hp).le
  · rw [decRank_align hp]; omega

/-- A bit accepted uses up one pair (R150 to R152). -/
theorem decRank_acceptBit_lt (bit : Bool) (hp : d.phase = .pair) (hn : d.nbits < 8) (hi : d.i + 1 < d.lLen) :
    decRank m (acceptBit bit d) < decRank m d := by
  have h := decRank_nextPairPhase_le m { d with acc := shiftIn d.acc bit, nbits := d.nbits + 1, i := d.i + 2 }
  rw [decRank_pair hp, if_neg (by omega)]
  refine h.trans_lt ?_
  dsimp only
  split_ifs <;> omega

/-- DEC's fuel covers a decode that DEC.START has just begun (R141). -/
theorem decRank_le_decSteps (hp : d.phase = if m = 0 then .parity else .classify) (hl : d.lLen = 0) (hk : d.k = 0) :
    decRank m d ≤ decSteps m := by
  unfold decSteps
  by_cases hm : m = 0
  · rw [decRank_parity (by simp [hp, hm])]; omega
  · rw [decRank_classify (by simp [hp, hm])]; omega

end Rank

/-- `t` is `s` but for the decoder, the CRC unit and the log; the log only grew, and an idle CRC unit is idle again. -/
structure DecoderFrame (s t : State) : Prop where
  rest : t = { s with dec := t.dec, crc := t.crc, log := t.log }
  log : s.log <+: t.log
  crcIdle : s.crc.phase = .idle → t.crc.phase = .idle

namespace DecoderFrame
variable {s t u : State}

theorem refl (s : State) : DecoderFrame s s := ⟨rfl, List.prefix_rfl, id⟩

theorem trans (h : DecoderFrame s t) (h' : DecoderFrame t u) : DecoderFrame s u where
  rest := by rw [h'.rest, h.rest]
  log := h.log.trans h'.log
  crcIdle := h'.crcIdle ∘ h.crcIdle

theorem setDec (s : State) (d : Decoder) : DecoderFrame s (s.setDec d) := ⟨rfl, List.prefix_rfl, id⟩

theorem setCrc_run (s : State) (bs : List Byte) : DecoderFrame s (s.setCrc (s.crc.run bs)) :=
  ⟨rfl, List.prefix_rfl, fun _ => rfl⟩

theorem logEvent (s : State) (e : Event) : DecoderFrame s (s.logEvent e) := ⟨rfl, List.prefix_append _ _, id⟩

theorem hphase (h : DecoderFrame s t) : t.hphase = s.hphase := by rw [h.rest]
theorem progress (h : DecoderFrame s t) : t.progress = s.progress := by rw [h.rest]
theorem rxLen (h : DecoderFrame s t) : t.rxLen = s.rxLen := by rw [h.rest]

end DecoderFrame

/-- One step of a decode: its frame, and fewer steps left. -/
structure DecoderStep (s t : State) : Prop where
  frame : DecoderFrame s t
  rank : decRank s.rxLen t.dec < decRank s.rxLen s.dec

section Steps
variable {s t : State}

/-- Raising ends the decode (R148), whatever the decoder and the CRC unit did just before. -/
theorem DecoderStep.of_raiseDec {u : State} (hu : DecoderFrame s u) (hp : s.dec.phase ≠ .idle) (e : DecError) :
    DecoderStep s (u.raiseDec e) where
  frame := hu.trans (.setDec u _)
  rank := by rw [decRank_idle rfl]; exact decRank_pos hp

/-- DEC.SHORT, DEC.AMBIG and DEC.LONG. -/
theorem onSample_raise_step {m : String} {c : SampleClass} {raw : Byte} {e : DecError}
    (h : onSample m c raw s (fun u => .next (u.raiseDec e)) = .next t) : DecoderStep s t := by
  obtain ⟨-, hp, -, -, -, ht⟩ := onSample_eq_next.mp h
  obtain rfl := Host.Outcome.next.inj ht
  exact .of_raiseDec (.setDec s _) (by simp [hp]) e

/-- DEC.SINGLE and DEC.DOUBLE: one sample fewer, at most two LevelBits more. -/
theorem onSample_toggleAppend_step {m : String} {c : SampleClass} {raw : Byte} {n : Nat} (hn : n ≤ 2)
    (h : onSample m c raw s (toggleAppend n) = .next t) : DecoderStep s t := by
  obtain ⟨-, hp, hk, -, -, ht⟩ := onSample_eq_next.mp h
  obtain ⟨-, rfl⟩ := toggleAppend_eq_next.mp ht
  refine ⟨(DecoderFrame.setDec s _).trans (.setDec _ _), ?_⟩
  rw [decRank_classify hp]
  by_cases hlast : s.dec.k + 1 = s.rxLen
  · rw [decRank_parity (by simp [hlast])]
    simp only [State.setDec_dec]
    omega
  · rw [decRank_classify (by simp [hlast])]
    simp only [State.setDec_dec]
    omega

theorem execDecParity_step (h : execDecParity s = .next t) : DecoderStep s t := by
  obtain ⟨hg, ho⟩ := enabledIf_eq_next.mp h
  obtain ⟨-, hp⟩ := decodingAt_iff.mp hg
  split_ifs at ho with hc
  · obtain ⟨levels, -, ho⟩ := reading_eq_next.mp ho
    obtain rfl := Host.Outcome.next.inj ho
    refine ⟨.setDec s _, (decRank_nextPairPhase_le _ _).trans_lt ?_⟩
    rw [decRank_parity hp]
    dsimp only
    split_ifs <;> omega
  · obtain rfl := Host.Outcome.next.inj ho
    refine ⟨.setDec s _, (decRank_nextPairPhase_le _ _).trans_lt ?_⟩
    rw [decRank_parity hp]
    split_ifs <;> omega

/-- DEC.PAIR1 and DEC.PAIR0. -/
theorem onPair_acceptBit_step {m : String} {a b bit : Bool}
    (h : onPair m a b s (.next (s.setDec (acceptBit bit s.dec))) = .next t) : DecoderStep s t := by
  obtain ⟨-, hp, hn, hi, -, ht⟩ := onPair_eq_next.mp h
  obtain rfl := Host.Outcome.next.inj ht
  exact ⟨.setDec s _, decRank_acceptBit_lt bit hp hn hi⟩

/-- DEC.PAIRF on either pattern. -/
theorem onPair_pairFault_step {m : String} {a b c : Bool}
    (h : onPair m a b s (.next (pairFault c s)) = .next t) : DecoderStep s t := by
  obtain ⟨-, hp, hn, hi, -, ht⟩ := onPair_eq_next.mp h
  obtain rfl := Host.Outcome.next.inj ht
  exact ⟨(DecoderFrame.logEvent s _).trans (.setDec _ _),
    decRank_acceptBit_lt (d := { s.dec with pairFaults := s.dec.pairFaults + 1 }) false hp hn hi⟩

theorem execDecByte_step (h : execDecByte s = .next t) : DecoderStep s t := by
  obtain ⟨hg, ho⟩ := enabledIf_eq_next.mp h
  simp only [Bool.and_eq_true, decodingAt_iff, beq_iff_eq] at hg
  obtain ⟨⟨⟨-, hp⟩, hn⟩, -⟩ := hg
  obtain ⟨out, -, ho⟩ := reading_eq_next.mp ho
  obtain rfl := Host.Outcome.next.inj ho
  refine ⟨.setDec s _, (decRank_nextPairPhase_le _ _).trans_lt ?_⟩
  rw [decRank_pair hp, if_pos hn]
  exact Nat.lt_succ_self _

theorem execDecOvf_step (h : execDecOvf s = .next t) : DecoderStep s t := by
  obtain ⟨hg, ho⟩ := enabledIf_eq_next.mp h
  simp only [Bool.and_eq_true, decodingAt_iff] at hg
  obtain ⟨⟨⟨-, hp⟩, -⟩, -⟩ := hg
  obtain rfl := Host.Outcome.next.inj ho
  exact .of_raiseDec (.refl s) (by simp [hp]) _

theorem execDecAlign_step (h : execDecAlign s = .next t) : DecoderStep s t := by
  obtain ⟨hg, ho⟩ := enabledIf_eq_next.mp h
  obtain ⟨-, hp⟩ := decodingAt_iff.mp hg
  split_ifs at ho
  · obtain rfl := Host.Outcome.next.inj ho
    refine ⟨.setDec s _, ?_⟩
    rw [decRank_check rfl, decRank_align hp]
    decide
  · obtain rfl := Host.Outcome.next.inj ho
    exact .of_raiseDec (.refl s) (by simp [hp]) _

theorem execDecRunt_step (h : execDecRunt s = .next t) : DecoderStep s t := by
  obtain ⟨hg, ho⟩ := enabledIf_eq_next.mp h
  simp only [Bool.and_eq_true, decodingAt_iff] at hg
  obtain ⟨⟨-, hp⟩, -⟩ := hg
  obtain rfl := Host.Outcome.next.inj ho
  exact .of_raiseDec (.refl s) (by simp [hp]) _

theorem execDecCheck_step (h : execDecCheck s = .next t) : DecoderStep s t := by
  obtain ⟨hg, ho⟩ := enabledIf_eq_next.mp h
  simp only [Bool.and_eq_true, decodingAt_iff] at hg
  obtain ⟨⟨⟨-, hp⟩, -⟩, -⟩ := hg
  obtain ⟨bs, -, ho⟩ := reading_eq_next.mp ho
  have hrun := DecoderFrame.setCrc_run s (bs.take (bs.length - 2))
  dsimp only at ho
  split_ifs at ho
  · obtain rfl := Host.Outcome.next.inj ho
    refine ⟨hrun.trans (.setDec _ _), ?_⟩
    rw [decRank_done rfl, decRank_check hp]
    decide
  · obtain rfl := Host.Outcome.next.inj ho
    exact .of_raiseDec hrun (by simp [hp]) _

theorem execDecDone_step (h : execDecDone s = .next t) : DecoderStep s t := by
  obtain ⟨hg, ho⟩ := enabledIf_eq_next.mp h
  obtain ⟨-, hp⟩ := decodingAt_iff.mp hg
  obtain ⟨bs, -, ho⟩ := reading_eq_next.mp ho
  obtain rfl := Host.Outcome.next.inj ho
  refine ⟨.setDec s _, ?_⟩
  rw [decRank_idle rfl, decRank_done hp]
  decide

theorem execDecStart_eq_next :
    execDecStart s = .next t ↔ s.hphase = .rxDecode ∧ s.dec.phase = .idle ∧ s.progress = .fresh ∧
      t = (s.setDec { s.dec with
        level := true, lLen := 0, k := 0, i := 1, acc := 0, nbits := 0, outLen := 0, pairFaults := 0, comp := false
        phase := if s.rxLen = 0 then .parity else .classify }).advance .decoding := by
  simp only [execDecStart, enabledIf_eq_next, decodeReady, Bool.and_eq_true, decodingAt_iff, beq_iff_eq, and_assoc,
    Host.Outcome.next.injEq, eq_comm (a := t)]

/-- Whatever operation is selected, it is one step of the decode. -/
theorem decStep_step (hp : s.dec.phase ≠ .idle) (h : decStep s = .next t) : DecoderStep s t := by
  unfold decStep at h
  split at h
  · cases h
  · obtain ⟨-, hidle, -⟩ := execDecStart_eq_next.mp h
    exact absurd hidle hp
  · exact onSample_raise_step h
  · exact onSample_toggleAppend_step (by decide) h
  · exact onSample_raise_step h
  · exact onSample_toggleAppend_step (by decide) h
  · exact onSample_raise_step h
  · exact execDecParity_step h
  · exact onPair_acceptBit_step h
  · exact onPair_acceptBit_step h
  · exact onPair_pairFault_step h
  · exact onPair_pairFault_step h
  · exact execDecByte_step h
  · exact execDecOvf_step h
  · exact execDecAlign_step h
  · exact execDecRunt_step h
  · exact execDecCheck_step h
  · exact execDecDone_step h
  · cases h

/-- With fuel for its rank, a decode that answers is back in `D_IDLE`. -/
theorem decLoop_ends {n : Nat} (hn : decRank s.rxLen s.dec ≤ n) (h : decLoop n s = .next t) :
    DecoderFrame s t ∧ t.dec.phase = .idle := by
  induction n generalizing s with
  | zero =>
    obtain rfl := Host.Outcome.next.inj h
    exact ⟨.refl s, by_contra fun hp => absurd (decRank_pos (m := s.rxLen) hp) (by omega)⟩
  | succ n ih =>
    unfold decLoop at h
    split_ifs at h with hp
    · obtain rfl := Host.Outcome.next.inj h
      exact ⟨.refl s, hp⟩
    · obtain ⟨u, hu, h⟩ := Out.andThen_eq_next.mp h
      have hstep := decStep_step hp hu
      obtain ⟨hframe, hidle⟩ := ih (by have := hstep.rank; rw [hstep.frame.rxLen]; omega) h
      exact ⟨hstep.frame.trans hframe, hidle⟩

/-- The whole decode: what it needs, its frame, and that it ends (R160). -/
theorem decRun_ends (h : decRun s = .next t) :
    s.hphase = .rxDecode ∧ s.dec.phase = .idle ∧ s.progress = .fresh ∧
      DecoderFrame (s.advance .decoding) t ∧ t.dec.phase = .idle := by
  obtain ⟨u, hu, h⟩ := Out.andThen_eq_next.mp h
  obtain ⟨hphase, hidle, hfresh, rfl⟩ := execDecStart_eq_next.mp hu
  obtain ⟨hframe, hend⟩ := decLoop_ends (decRank_le_decSteps rfl rfl rfl) h
  exact ⟨hphase, hidle, hfresh, (DecoderFrame.setDec (s.advance .decoding) _).trans hframe, hend⟩

end Steps

end Sys2Proof.Machine
end

section
/-! PROOFS. ARB.RXDECODE taken after its parts DEC and RLY.IN (R209, R250, log entries 7 and 26). -/

namespace Sys2Proof.Machine

/-- What ARB.RXDECODE leaves once DEC has returned (R209). -/
def State.decodeHandled (s : State) : State := ({ deliver s with rxValid := false }.goto .txDone).advance .fresh

section
variable {s t : State}

theorem execArbRxdecode_eq (hp : s.hphase = .rxDecode) (hd : s.dec.phase = .idle) (hc : s.crc.phase = .idle) :
    execArbRxdecode s = Out.andThen (decodeOnce s) fun t => .next t.decodeHandled := by
  simp [execArbRxdecode, atPhase, hp, hd, crcFree_iff.mpr hc, State.decodeHandled]

/-- A decode that a trace has taken already is not taken again (log entry 7). -/
theorem execArbRxdecode_of_decoded (hp : s.hphase = .rxDecode) (hd : s.dec.phase = .idle) (hc : s.crc.phase = .idle)
    (hprog : s.progress = .decoding ∨ s.progress = .relayed) : execArbRxdecode s = .next s.decodeHandled := by
  rw [execArbRxdecode_eq hp hd hc, decodeOnce, if_pos hprog, Out.andThen_next]

theorem execArbRxdecode_of_fresh (hp : s.hphase = .rxDecode) (hd : s.dec.phase = .idle) (hc : s.crc.phase = .idle)
    (hprog : s.progress = .fresh) (hrun : decRun s = .next t) : execArbRxdecode s = .next t.decodeHandled := by
  rw [execArbRxdecode_eq hp hd hc, decodeOnce, if_neg (by simp [hprog]), hrun, Out.andThen_next]

/-- All DEC can do (R160): it is enabled, its primitives run, and they end in `D_IDLE`. -/
theorem execDec_ends (h : execDec s = .next t) :
    decRun s = .next t ∧ t.hphase = .rxDecode ∧ t.progress = .decoding ∧ t.dec.phase = .idle ∧ t.crc.phase = .idle := by
  obtain ⟨hg, hrun⟩ := enabledIf_eq_next.mp h
  obtain ⟨-, hfree⟩ := Bool.and_eq_true_iff.mp hg
  obtain ⟨hphase, -, -, hframe, hidle⟩ := decRun_ends hrun
  exact ⟨hrun, hframe.hphase.trans hphase, hframe.progress, hidle, hframe.crcIdle (crcFree_iff.mp hfree)⟩

/-- What RLY.IN leaves (R250). -/
def State.relayedIn (s : State) (f : List Byte) : State :=
  match relayIn f with
  | .ok g => ((s.broadcast g).setResult .relayed).advance .relayed
  | .error e => (s.setResult (.rlyError e)).advance .relayed

theorem execRlyIn_of_frame {f : List Byte} {n : Nat} {c : Bool} (hp : s.hphase = .rxDecode) (hd : s.dec.phase = .idle)
    (hprog : s.progress = .decoding) (hf : s.dec.result = .frame f n c) :
    execRlyIn f s = .next (s.relayedIn f) := by
  have hg : (decodeReturned s && decodedFrame s.dec.result f) = true := by
    simp [decodeReturned, decodedFrame, hp, hd, hprog, hf]
  rw [execRlyIn, hg, enabledIf_true, State.relayedIn]
  cases relayIn f <;> rfl

@[simp] theorem State.relayedIn_hphase (s : State) (f : List Byte) : (s.relayedIn f).hphase = s.hphase := by
  unfold State.relayedIn; split <;> rfl
@[simp] theorem State.relayedIn_dec (s : State) (f : List Byte) : (s.relayedIn f).dec = s.dec := by
  unfold State.relayedIn; split <;> rfl
@[simp] theorem State.relayedIn_crc (s : State) (f : List Byte) : (s.relayedIn f).crc = s.crc := by
  unfold State.relayedIn; split <;> rfl
@[simp] theorem State.relayedIn_progress (s : State) (f : List Byte) : (s.relayedIn f).progress = .relayed := by
  unfold State.relayedIn; split <;> rfl

/-- ARB.RXDECODE ends where it ends without RLY.IN: the datagram leaves once, the error is logged once (R252). -/
theorem decodeHandled_relayedIn {f : List Byte} {n : Nat} {c : Bool} (hprog : s.progress = .decoding)
    (hf : s.dec.result = .frame f n c) :
    (s.relayedIn f).decodeHandled = { s.decodeHandled with result := (s.relayedIn f).result } := by
  cases hr : relayIn f with
  | ok g =>
    have hin : s.relayedIn f = ((s.broadcast g).setResult .relayed).advance .relayed := by
      rw [State.relayedIn, hr]
    have hwhole : deliver s = s.broadcast g := by simp [deliver, hf, hr, hprog]
    have hparts : deliver (s.relayedIn f) = s.relayedIn f := by simp [deliver, hf, hr]
    rw [State.decodeHandled, State.decodeHandled, hwhole, hparts, hin]
    rfl
  | error e =>
    have hin : s.relayedIn f = (s.setResult (.rlyError e)).advance .relayed := by rw [State.relayedIn, hr]
    have hwhole : deliver s = s.logEvent (.relay e) := by simp [deliver, hf, hr]
    have hparts : deliver (s.relayedIn f) = (s.relayedIn f).logEvent (.relay e) := by simp [deliver, hf, hr]
    rw [State.decodeHandled, State.decodeHandled, hwhole, hparts, hin]
    rfl

end

theorem arbRxdecode_after_parts {s t : State} {xs : List Byte} (hs : ReadyToDecode s xs) (h : exec .dec s = .next t) :
    exec .arbRxdecode t = exec .arbRxdecode s ∧
      ∀ f n c, t.dec.result = .frame f n c → ∃ u v, exec (.rlyIn f) t = .next u ∧
        exec .arbRxdecode s = .next v ∧ exec .arbRxdecode u = .next { v with result := u.result } := by
  obtain ⟨hrun, hp, hprog, hidle, hfree⟩ := execDec_ends h
  have hwhole : exec .arbRxdecode s = .next t.decodeHandled :=
    execArbRxdecode_of_fresh hs.hphase hs.idle hs.free hs.fresh hrun
  refine ⟨?_, fun f n c hf => ⟨t.relayedIn f, t.decodeHandled, execRlyIn_of_frame hp hidle hprog hf, hwhole, ?_⟩⟩
  · rw [hwhole]
    exact execArbRxdecode_of_decoded hp hidle hfree (.inl hprog)
  · rw [← decodeHandled_relayedIn hprog hf]
    exact execArbRxdecode_of_decoded (by simpa) (by simpa) (by simpa) (.inr (by simp))

end Sys2Proof.Machine
end

section
/-! PROOFS. ARB.TXFILL taken after its parts RLY.OUT, ENC.CHECK, ENC.CRC and ENC.FILL, or RLY.OUT and ENC: repeating
them on the same payload writes the same values again (R184, R213, log entry 26). -/

namespace Sys2Proof.Machine

/-! ## Repeating a store and a CRC16 -/

theorem Memory.write_write_same {α : Type} (m : Memory α) (a : Nat) (x : α) :
    Memory.write (Memory.write m a x) a x = Memory.write m a x := by
  induction m with
  | nil => simp [Memory.write]
  | cons c m ih =>
    obtain ⟨b, v⟩ := c
    rcases lt_trichotomy a b with h | rfl | h
    · simp [Memory.write, h]
    · simp [Memory.write]
    · simp [Memory.write, h.not_gt, h.ne', ih]

theorem Memory.write_comm_of_lt {α : Type} (m : Memory α) {a b : Nat} (hab : a < b) (x y : α) :
    Memory.write (Memory.write m b y) a x = Memory.write (Memory.write m a x) b y := by
  induction m with
  | nil => simp [Memory.write, hab, hab.not_gt, hab.ne']
  | cons c m ih =>
    obtain ⟨d, v⟩ := c
    rcases lt_trichotomy a d with h | rfl | h
    · rcases lt_trichotomy b d with h' | rfl | h'
      · simp [Memory.write, h, h', hab, hab.not_gt, hab.ne']
      · simp [Memory.write, h, hab.not_gt, hab.ne']
      · simp [Memory.write, h, h'.not_gt, h'.ne', hab.not_gt, hab.ne']
    · simp [Memory.write, hab.not_gt, hab.ne']
    · have h' := h.trans hab
      simp [Memory.write, h.not_gt, h.ne', h'.not_gt, h'.ne', ih]

theorem Memory.write_writeAll_of_lt {α : Type} (xs : List α) (m : Memory α) {a b : Nat} (hab : a < b) (x : α) :
    Memory.write (Memory.writeAll m b xs) a x = Memory.writeAll (Memory.write m a x) b xs := by
  induction xs generalizing m b with
  | nil => rfl
  | cons y ys ih => simp only [Memory.writeAll, ih _ (Nat.lt_succ_of_lt hab), Memory.write_comm_of_lt m hab]

/-- A store repeated changes nothing, in any memory. -/
theorem Memory.writeAll_writeAll_same {α : Type} (xs : List α) (m : Memory α) (a : Nat) :
    Memory.writeAll (Memory.writeAll m a xs) a xs = Memory.writeAll m a xs := by
  induction xs generalizing m a with
  | nil => rfl
  | cons x xs ih =>
    simp only [Memory.writeAll, Memory.write_writeAll_of_lt xs _ (Nat.lt_succ_self a), Memory.write_write_same, ih]

/-- CRC.BYTE reads nothing of the unit but `crc_reg` (R123). -/
theorem CrcUnit.byteStep_congr {c c' : CrcUnit} (h : c.reg = c'.reg) (b : Byte) : c.byteStep b = c'.byteStep b := by
  simp [CrcUnit.byteStep, CrcUnit.loadByte, h]

/-- A CRC16 repeated on the same bytes leaves the unit as it is: each starts from 0x8005 (R313). -/
theorem CrcUnit.run_run_same (c : CrcUnit) (bs : List Byte) : (c.run bs).run bs = c.run bs := by
  cases bs with
  | nil => rfl
  | cons b bs =>
    have hreg : (c.run (b :: bs)).init.reg = c.init.reg := rfl
    simp only [CrcUnit.run, List.foldl_cons] at hreg ⊢
    rw [CrcUnit.byteStep_congr hreg]

/-! ## ENC on an admitted payload -/

/-- What ENC.CHECK and ENC.CRC leave of an admitted payload (R181, R182): its length and its checksum. -/
def State.summed (p : List Byte) (s : State) : State :=
  { s with crc := s.crc.run p, enc := { len := p.length, crc := (s.crc.run p).reg } }

/-- What ENC leaves of it (R184): beside those, the wire frame in `w_buf` and its count in `w_length`. -/
def State.encoded (p : List Byte) (s : State) : State :=
  { s.summed p with
    wbuf := Memory.writeAll s.wbuf 0 (p ++ [hi (s.crc.run p).reg, lo (s.crc.run p).reg])
    ifb := { s.ifb with wLength := BitVec.ofNat 32 (p.length + 2) } }

section
variable {p : List Byte} {s : State}

theorem State.logIf_none (s : State) : s.logIf none = s := rfl
theorem State.encoded_setResult (r : OpResult) : (s.setResult r).encoded p = (s.encoded p).setResult r := rfl
theorem State.encoded_advance (a : Progress) : (s.advance a).encoded p = (s.encoded p).advance a := rfl

/-- Encoding the payload again changes nothing. -/
theorem State.encoded_encoded (p : List Byte) (s : State) : (s.encoded p).encoded p = s.encoded p := by
  simp only [State.encoded, State.summed, CrcUnit.run_run_same, Memory.writeAll_writeAll_same]

theorem encRefusal_eq_none {cfg : Config} {q : Nat} (heven : q % 2 = 0) (hfit : q + 2 ≤ cfg.wCap) :
    encRefusal cfg q = none := by
  rw [encRefusal, if_neg (by omega), if_neg (by omega)]

theorem encChecksum_encAdmit (p : List Byte) (s : State) : encChecksum p (encAdmit p.length s) = s.summed p := by
  simp [encChecksum, encAdmit, State.summed]

theorem encStore_summed (how : s.ifb.wOwner = .host) (hfit : p.length + 2 ≤ s.cfg.wCap) :
    encStore p (s.summed p) = .next (s.encoded p) := by
  refine encStore_eq_next.mpr ⟨how, by simpa [State.summed] using hfit, ?_⟩
  simp [State.summed, State.encoded]

theorem encCommit_eq_encoded (how : s.ifb.wOwner = .host) (hfit : p.length + 2 ≤ s.cfg.wCap) :
    encCommit p s = .next (s.encoded p) := by
  rw [encCommit, encChecksum_encAdmit, encStore_summed how hfit]

end

/-! ## The parts of ARB.TXFILL -/

/-- Host stands in ARB.TXFILL, its parts taken as far as `a`, with an admissible payload `p`; `e` is what RLY.OUT logs of
its header. -/
structure Filling (p : List Byte) (e : Option Event) (a : Progress) (s : State) : Prop where
  hphase : s.hphase = .txFill
  progress : s.progress = a
  free : s.crc.phase = .idle
  owner : s.ifb.wOwner = .host
  unframed : relayOut s.txDgram = .ok (p, e)
  even : p.length % 2 = 0
  fits : p.length + 2 ≤ s.cfg.wCap

/-- What ARB.TXFILL does after the frame is in `w_buf` (R213). -/
def State.handedToRelease (s : State) : State := ({ s with txDgram := [] }.goto .txRelease).advance .fresh

namespace Filling
variable {p : List Byte} {e : Option Event} {a : Progress} {s : State}

theorem at_progress (hs : Filling p e a s) : fillingAt a s = true := fillingAt_iff.mpr ⟨hs.hphase, hs.progress⟩

theorem payload (hs : Filling p e a s) : txPayload s = some p := by rw [txPayload, hs.unframed]

theorem admitted (hs : Filling p e a s) : encRefusal s.cfg p.length = none := encRefusal_eq_none hs.even hs.fits

theorem logIf (hs : Filling p e a s) (x : Option Event) : Filling p e a (s.logIf x) := by
  obtain ⟨hphase, hprog, hfree, how, hout, heven, hfit⟩ := hs
  cases x <;> exact ⟨hphase, hprog, hfree, how, hout, heven, hfit⟩

/-- Recording a part taken and its result keeps the rest. -/
theorem recorded (hs : Filling p e a s) (r : OpResult) (b : Progress) :
    Filling p e b ((s.setResult r).advance b) :=
  ⟨hs.hphase, rfl, hs.free, hs.owner, hs.unframed, hs.even, hs.fits⟩

theorem encAdmit (hs : Filling p e a s) (q : Nat) : Filling p e a (encAdmit q s) :=
  ⟨hs.hphase, hs.progress, hs.free, hs.owner, hs.unframed, hs.even, hs.fits⟩

theorem summed (hs : Filling p e a s) (q : List Byte) : Filling p e a (s.summed q) :=
  ⟨hs.hphase, hs.progress, rfl, hs.owner, hs.unframed, hs.even, hs.fits⟩

theorem encoded (hs : Filling p e a s) (q : List Byte) : Filling p e a (s.encoded q) :=
  ⟨hs.hphase, hs.progress, rfl, hs.owner, hs.unframed, hs.even, hs.fits⟩

/-- RLY.OUT (R251). -/
theorem execRlyOut_eq (hs : Filling p e .fresh s) :
    execRlyOut s.txDgram s = .next (((s.logIf e).setResult (.payload p)).advance .unframed) := by
  simp [execRlyOut, hs.hphase, hs.progress, hs.unframed]

/-- ENC.CHECK (R181). -/
theorem execEncCheck_eq (hs : Filling p e .unframed s) :
    execEncCheck p.length s =
      .next (((Machine.encAdmit p.length s).setResult .encOk).advance .admitted) := by
  simp [execEncCheck, hs.at_progress, hs.payload, hs.admitted]

/-- ENC.CRC (R182). -/
theorem execEncCrc_eq (hs : Filling p e .admitted s) : execEncCrc p s = .next ((encChecksum p s).advance .summed) := by
  simp [execEncCrc, hs.at_progress, hs.payload, crcFree_iff.mpr hs.free]

/-- ENC.FILL (R183). -/
theorem execEncFill_eq (hs : Filling p e .summed (s.summed p)) :
    execEncFill p (s.summed p) = .next ((s.encoded p).advance .ended) := by
  simp [execEncFill, hs.at_progress, hs.payload, encStore_summed (p := p) (s := s) hs.owner hs.fits]

/-- ENC (R184). -/
theorem execEnc_eq (hs : Filling p e .unframed s) :
    execEnc p s = .next (((s.encoded p).setResult .encOk).advance .ended) := by
  simp [execEnc, hs.at_progress, hs.payload, crcFree_iff.mpr hs.free, hs.admitted,
    encCommit_eq_encoded hs.owner hs.fits]

/-- ENC.CHECK, ENC.CRC and ENC.FILL end where ENC ends (R184). -/
theorem execEncParts_eq (hs : Filling p e .unframed s) :
    ∃ b c, execEncCheck p.length s = .next b ∧ execEncCrc p b = .next c ∧
      execEncFill p c = .next (((s.encoded p).setResult .encOk).advance .ended) := by
  let checked := (s.setResult .encOk).advance .admitted
  have hchecked : Filling p e .admitted (Machine.encAdmit p.length checked) := (hs.recorded _ _).encAdmit _
  have hsummed : Filling p e .summed ((checked.advance .summed).summed p) :=
    ((hs.recorded _ _).summed p)
  refine ⟨_, _, hs.execEncCheck_eq, hchecked.execEncCrc_eq, ?_⟩
  rw [encChecksum_encAdmit]
  exact hsummed.execEncFill_eq

/-- ARB.TXFILL, whatever parts were taken before (R213). -/
theorem execArbTxfill_eq (hs : Filling p e a s) :
    execArbTxfill s = .next (((s.logIf (if a = .fresh then e else none)).encoded p).handedToRelease) := by
  have hlog := hs.logIf (if a = .fresh then e else none)
  simp [execArbTxfill, atPhase, hs.hphase, crcFree_iff.mpr hs.free, hs.unframed, hs.progress, fillPayload,
    hlog.admitted, encCommit_eq_encoded hlog.owner hlog.fits, State.handedToRelease]

/-- ARB.TXFILL after ENC, on what RLY.OUT left: ENC again writes what it wrote. -/
theorem execArbTxfill_after_enc {r : OpResult} (hs : Filling p e .unframed ((s.setResult r).advance .unframed)) :
    execArbTxfill (((((s.setResult r).advance .unframed).encoded p).setResult .encOk).advance .ended) =
      .next { (s.encoded p).handedToRelease with result := .encOk } := by
  have hdone := (hs.encoded p).recorded .encOk .ended
  rw [hdone.execArbTxfill_eq, if_neg (by decide), State.logIf_none]
  simp only [State.encoded_advance, State.encoded_setResult, State.encoded_encoded]
  rfl

end Filling

theorem arbTxfill_after_parts {s : State} {p : List Byte} {e : Option Event} (hs : Filling p e .fresh s) :
    ∃ a b c d v, exec (.rlyOut s.txDgram) s = .next a ∧ exec (.encCheck p.length) a = .next b ∧
      exec (.encCrc p) b = .next c ∧ exec (.encFill p) c = .next d ∧ exec (.enc p) a = .next d ∧
      exec .arbTxfill s = .next v ∧ exec .arbTxfill d = .next { v with result := d.result } := by
  have hunframed : Filling p e .unframed (((s.logIf e).setResult (.payload p)).advance .unframed) :=
    (hs.logIf e).recorded _ _
  obtain ⟨b, c, hcheck, hcrc, hfill⟩ := hunframed.execEncParts_eq
  have hwhole := hs.execArbTxfill_eq
  rw [if_pos rfl] at hwhole
  exact ⟨_, b, c, _, _, hs.execRlyOut_eq, hcheck, hcrc, hfill, hunframed.execEnc_eq, hwhole,
    hunframed.execArbTxfill_after_enc⟩

/-- Settles O60: ARB.RXDECODE by DEC's end in `D_IDLE` and the mark of RLY.IN, ARB.TXFILL by the repetition of its parts
changing nothing. -/
theorem partsMakeTheWhole : Obligations.PartsMakeTheWhole := by
  refine ⟨fun s t xs hs h => arbRxdecode_after_parts hs h, ?_⟩
  intro s h l p hphase hprog hfree how hdgram heven hfit
  obtain ⟨e, hout⟩ : ∃ e, relayOut s.txDgram = .ok (p, e) := by rw [hdgram]; exact ⟨_, rfl⟩
  obtain ⟨a, b, c, d, v, hrly, hcheck, hcrc, hfill, henc, hwhole, hafter⟩ :=
    arbTxfill_after_parts ⟨hphase, hprog, hfree, how, hout, heven, hfit⟩
  exact ⟨a, b, c, d, d, v, hdgram ▸ hrly, hcheck, hcrc, hfill, henc, hwhole, hafter, hafter⟩

end Sys2Proof.Machine
end

section
/-! PROOFS. What a step runs, said once for each kind of trace, and which operation each phase selects (R14, R90, R104,
log entries 1, 6, 18 and 20). -/

namespace Sys2Proof.Machine

section
variable {s : State}

/-! ## A step by what the trace holds -/

theorem crcReturns_iff : crcReturns s = true ↔ CrcTurn s ∧ s.crc.phase = .load := by
  rw [crcReturns, Bool.and_eq_true, crcTurn_iff, beq_iff_eq]

theorem execCrcReturn_eq (ht : CrcTurn s) (hp : s.crc.phase = .load) :
    execCrcReturn s = .next (s.setCrc s.crc.returned) := onCrc_eq_next.mpr ⟨ht, hp, rfl⟩

theorem step_of_decode {i : Instr} {r : List Byte} (hc : traceControl s.feed = none) (hd : decode s.feed = .ok (i, r)) :
    step s = exec i { s with feed := r } := by
  cases hf : s.feed with
  | nil => rw [hf] at hd; cases hd
  | cons b bs => rw [hf] at hc hd; simp only [step, hf, hc, hd]

theorem step_of_undecodable {e : DecodeError} (hf : s.feed ≠ []) (hc : traceControl s.feed = none)
    (hd : decode s.feed = .error e) : step s = .refused (.undecodable e) := by
  cases hb : s.feed with
  | nil => exact absurd hb hf
  | cons b bs => rw [hb] at hc hd; simp only [step, hb, hc, hd]

theorem step_of_crcReturn_control {r : List Byte} (hf : s.feed = 0xFE :: 0x00 :: r) :
    step s = execCrcReturn { s with feed := r } := by
  have hc : traceControl (0xFE :: 0x00 :: r) = some (.crcReturn, r) := rfl
  simp only [step, hf, hc]

theorem step_of_crcReturns (hf : s.feed = []) (h : CrcTurn s ∧ s.crc.phase = .load) : step s = execCrcReturn s := by
  simp only [step, hf, crcReturns_iff.mpr h, if_true]

theorem step_of_select {i : Instr} (hf : s.feed = []) (h : ¬(CrcTurn s ∧ s.crc.phase = .load))
    (hsel : select s = .ok i) : step s = exec i s := by
  simp only [step, hf, if_neg (mt crcReturns_iff.mp h), hsel]

theorem step_of_select_fault {r : Fault} (hf : s.feed = []) (h : ¬(CrcTurn s ∧ s.crc.phase = .load))
    (hsel : select s = .error r) : step s = .fault r := by
  simp only [step, hf, if_neg (mt crcReturns_iff.mp h), hsel]

/-! ## The operation the phases select -/

theorem select_of_crcBit (ht : CrcTurn s) (hp : s.crc.phase = .bit) : select s = .ok .crcBit := by
  rw [select, if_pos ⟨crcTurn_iff.mpr ht, hp⟩]

theorem select_of_decoding (hb : ¬(CrcTurn s ∧ s.crc.phase = .bit)) (hp : s.hphase = .rxDecode)
    (hd : s.dec.phase ≠ .idle) : select s = decOp s := by
  rw [select, if_neg (mt (And.imp_left crcTurn_iff.mp) hb), if_pos ⟨hp, hd⟩]

theorem select_eq_hostOp (hb : ¬(CrcTurn s ∧ s.crc.phase = .bit)) (hd : ¬(s.hphase = .rxDecode ∧ s.dec.phase ≠ .idle)) :
    select s = hostOp s := by
  rw [select, if_neg (mt (And.imp_left crcTurn_iff.mp) hb), if_neg hd]

theorem waitReady_iff : waitReady s = true ↔ SourceReady s := by
  simp [waitReady, sockReady, SourceReady]

theorem hostOp_of_wait (hp : s.hphase = .wait) (hr : SourceReady s) : hostOp s = .ok .arbWait := by
  simp only [hostOp, hp, waitReady_iff.mpr hr, if_true]

theorem hostOp_of_wait_idle (hp : s.hphase = .wait) (hr : ¬SourceReady s) : hostOp s = .ok .arbTick := by
  simp only [hostOp, hp, if_neg (mt waitReady_iff.mp hr)]

theorem hostOp_of_halt (hp : s.hphase = .halt) : hostOp s = .error .halted := by simp only [hostOp, hp]

end

/-- The phases of the loop that have one operation each (R104). -/
def phaseOps : List (HPhase × Instr) :=
  [(.boot, .arbBoot), (.arm, .arbArm), (.ack, .arbAck), (.rxTest, .arbRxtest), (.rxStatus, .arbRxstatus),
    (.rxTrunc, .arbRxtrunc), (.rxCopy, .arbRxcopy), (.rxRelease, .arbRxrelease), (.rxDecode, .arbRxdecode),
    (.txDone, .arbTxdone), (.txTest, .arbTxtest), (.txOwner, .arbTxowner), (.txFill, .arbTxfill),
    (.txRelease, .arbTxrelease)]

theorem hostOp_of_mem_phaseOps {s : State} {i : Instr} (h : (s.hphase, i) ∈ phaseOps) : hostOp s = .ok i := by
  cases hp : s.hphase <;> simp [phaseOps, hp] at h <;> simp [hostOp, hp, h]

/-- Settles O44, by the equations of `step` and `select` above. -/
theorem stepRunsTheSelectedOperation : Obligations.StepRunsTheSelectedOperation := by
  have hloop : ∀ s : State, s.crc.phase ≠ .bit → s.dec.phase = .idle → select s = hostOp s := fun s hb hd =>
    select_eq_hostOp (fun h => hb h.2) (fun h => h.2 hd)
  refine ⟨fun s i r => step_of_decode, fun s e => step_of_undecodable, ?_, ?_, fun s i => step_of_select, ?_,
    fun s => select_of_crcBit, fun s hb => select_of_decoding fun h => hb h.2, ?_, ?_, ?_⟩
  · intro s r hf ht hp
    rw [step_of_crcReturn_control hf]
    exact execCrcReturn_eq ht hp
  · intro s hf ht hp
    rw [step_of_crcReturns hf ⟨ht, hp⟩]
    exact execCrcReturn_eq ht hp
  · intro s hf hp
    have hturn : ¬CrcTurn s := not_crcTurn_of_hphase (by simp [hp]) (by simp [hp]) (by simp [hp])
    refine step_of_select_fault hf (fun h => hturn h.1) ?_
    rw [select_eq_hostOp (fun h => hturn h.1) (by simp [hp]), hostOp_of_halt hp]
  · intro s hb hd hp hr
    rw [hloop s hb hd, hostOp_of_wait hp hr]
  · intro s hb hd hp hr
    rw [hloop s hb hd, hostOp_of_wait_idle hp hr]
  · rintro s hb hd _ i hmem rfl
    rw [hloop s hb hd]
    exact hostOp_of_mem_phaseOps hmem

end Sys2Proof.Machine
end

section
/-! PROOFS. Safe outcomes: an outcome that neither faults nor breaks ownership and whose next state has a property, with one
rule for each combinator of the meanings; and what the payload reads and stores answer where the payload is written. -/

namespace Sys2Proof

/-! ## What U2 allows -/

namespace Config
variable {c : Config}

theorem valid_iff : c.valid = true ↔ 2 ≤ c.maxFrameBytes ∧ 2 ≤ c.wCap ∧ 2 * c.rCap + 1 ≤ c.lCap ∧
    c.rCap < 2 ^ 32 ∧ c.wCap < 2 ^ 32 ∧ (c.maxFrameBytes - 2) / 2 < 2 ^ 16 := by
  simp only [Config.valid, Bool.and_eq_true, decide_eq_true_eq, and_assoc]

theorem lCap_of_valid (h : c.valid = true) : 2 * c.rCap + 1 ≤ c.lCap := by
  obtain ⟨-, -, hl, -⟩ := valid_iff.mp h; exact hl

theorem rCap_of_valid (h : c.valid = true) : c.rCap < 2 ^ 32 := by
  obtain ⟨-, -, -, hr, -⟩ := valid_iff.mp h; exact hr

theorem wCap_of_valid (h : c.valid = true) : c.wCap < 2 ^ 32 := by
  obtain ⟨-, -, -, -, hw, -⟩ := valid_iff.mp h; exact hw

end Config

end Sys2Proof

namespace Sys2Proof.Machine

/-- The outcome is no fault and no refusal for breaking ownership, and a next state satisfies `P`. -/
def Out.Safe (P : State → Prop) : Out → Prop
  | .next t => P t
  | .fault _ => False
  | .refused r => ∀ b, r ≠ .breaksOwnership b

namespace Out.Safe
variable {P Q : State → Prop} {s t : State} {o : Out}

theorem of_next (h : Safe P o) (ho : o = .next t) : P t := by subst ho; exact h

theorem not_fault (h : Safe P o) (r : Fault) : o ≠ .fault r := by rintro rfl; exact h

theorem not_breaksOwnership (h : Safe P o) (b : Buffer) : o ≠ .refused (.breaksOwnership b) := by
  rintro rfl; exact h b rfl

/-- What is known of every next state may be added. -/
theorem and_next (h : Safe P o) (hq : ∀ t, o = .next t → Q t) : Safe (fun t => P t ∧ Q t) o := by
  cases o with
  | next t => exact ⟨h, hq t rfl⟩
  | fault r => exact h
  | refused r => exact h

theorem notEnabled (m : String) : Safe P (.refused (.notEnabled m)) := by rintro b ⟨⟩

theorem ite_enabled {m : String} {c : Bool} (h : c = true → Safe P o) : Safe P (enabledIf m c o) := by
  cases c with
  | false => exact notEnabled m
  | true => exact h rfl

theorem at_phase {m : String} {p : HPhase} (h : s.hphase = p → Safe P o) : Safe P (atPhase m p s o) :=
  ite_enabled fun hp => h (beq_iff_eq.mp hp)

theorem read {α : Type} {x : Except Fault α} {v : α} {f : α → Out} (hx : x = .ok v) (h : Safe P (f v)) :
    Safe P (reading x f) := by subst hx; exact h

theorem owns_rx (hs : s.ifb.rOwner = .host) (h : Safe P o) : Safe P (hostOwnsRx s o) := by
  rw [hostOwnsRx, if_pos hs]; exact h

theorem owns_tx (hs : s.ifb.wOwner = .host) (h : Safe P o) : Safe P (hostOwnsTx s o) := by
  rw [hostOwnsTx, if_pos hs]; exact h

theorem and_then {f : State → Out} (h : Safe Q o) (hf : ∀ u, Q u → Safe P (f u)) : Safe P (Out.andThen o f) := by
  cases o with
  | next t => exact hf t h
  | fault r => exact h
  | refused r => exact h

end Out.Safe

section Payloads
variable {α : Type} {m : Memory α} {a n cap : Nat} {xs : List α} {sp : Space}

theorem Memory.written_zero (m : Memory α) : Memory.written m 0 := fun _ h => absurd h (Nat.not_lt_zero _)

theorem Memory.written_writeAll (h : Memory.written m a) (xs : List α) :
    Memory.written (Memory.writeAll m a xs) (a + xs.length) := by
  intro j hj
  rw [Memory.read_writeAll]
  split_ifs with hin
  · exact ⟨_, List.getElem?_eq_getElem (by omega)⟩
  · exact h j (by omega)

theorem Memory.holds_writeAll (m : Memory α) (xs : List α) : Memory.holds (Memory.writeAll m 0 xs) xs := by
  intro j hj
  rw [Memory.read_writeAll, if_pos (by omega), Nat.sub_zero]

theorem loadCell_of_written (h : Memory.written m n) (ha : a < n) (hn : n ≤ cap) : ∃ v, loadCell sp cap m a = .ok v := by
  obtain ⟨v, hv⟩ := h a ha
  exact ⟨v, loadCell_eq_ok.mpr ⟨by omega, hv⟩⟩

theorem loadSpan_of_holds (h : Memory.holds m xs) (hn : xs.length ≤ cap) : loadSpan sp cap m 0 xs.length = .ok xs :=
  loadSpan_eq_ok.mpr ⟨rfl, fun j hj => by rw [Nat.zero_add]; exact ⟨by omega, h j hj⟩⟩

theorem loadSpan_of_written (h : Memory.written m n) (hn : n ≤ cap) : ∃ xs, loadSpan sp cap m 0 n = .ok xs := by
  choose f hf using h
  have hholds : Memory.holds m (List.ofFn fun j : Fin n => f j j.2) := by
    intro j hj
    have hjn : j < n := by simpa using hj
    rw [hf j hjn, List.getElem?_eq_getElem hj, List.getElem_ofFn]
  exact ⟨_, by simpa using loadSpan_of_holds (sp := sp) hholds (by simpa using hn)⟩

theorem storeSpan_of_fits (h : a + xs.length ≤ cap) : storeSpan sp cap m a xs = .ok (Memory.writeAll m a xs) :=
  storeSpan_eq_ok.mpr ⟨h, rfl⟩

end Payloads

/-! ## The CRC unit computes its closed form (R122 to R124) -/

theorem CrcUnit.bitSteps_reg (n : Nat) (c : CrcUnit) : (CrcUnit.bitSteps n c).reg = crcIterate n c.reg c.data := by
  induction n generalizing c with
  | zero => rfl
  | succ n ih => exact ih c.bitStep

theorem CrcUnit.byteStep_reg (c : CrcUnit) (b : Byte) : (c.byteStep b).reg = crcByte c.reg b :=
  CrcUnit.bitSteps_reg 8 (c.loadByte b)

theorem CrcUnit.run_reg (c : CrcUnit) (bs : List Byte) : (c.run bs).reg = crc16 bs :=
  (List.foldl_hom (init := c.init) CrcUnit.reg fun c b => (CrcUnit.byteStep_reg c b).symm).symm

theorem CrcUnit.byteStep_phase (c : CrcUnit) (b : Byte) : (c.byteStep b).phase = .load := rfl

/-- A CRC.BIT inside a byte counts one of the eight (R122). -/
theorem CrcUnit.bitStep_cnt_lt {c : CrcUnit} (hc : c.cnt < 8) (h : c.bitStep.phase = .bit) : c.bitStep.cnt < 8 := by
  have hphase : c.bitStep.phase = if c.cnt + 1 = 8 then .load else c.phase := rfl
  have h8 : c.cnt + 1 ≠ 8 := fun h8 => by rw [hphase, if_pos h8] at h; cases h
  rw [CrcUnit.bitStep_cnt]
  bv_omega

end Sys2Proof.Machine
end

section
/-! PROOFS. How the invariant passes from a state to the next, by the part of the state an operation touches: nothing the
invariant reads, the CRC unit, the parts of ARB.TXFILL, or a move of Host along its loop. -/

namespace Sys2Proof.Machine

section
variable {s t : State}

/-! ## Where the units stand still -/

/-- Between the arbiter operations that have parts: both units are idle and no part is taken. -/
structure Quiet (s : State) : Prop where
  dec : s.dec.phase = .idle
  crc : s.crc.phase = .idle
  progress : s.progress = .fresh

theorem Quiet.decoder (h : Quiet s) : DecoderSound s := by constructor <;> simp [h.dec]

theorem Quiet.parts (h : Quiet s) : PartsSound s := by constructor <;> simp [h.dec, h.crc, h.progress]

theorem Inv.crc_idle (h : Inv s) (hn : ¬CrcTurn s) : s.crc.phase = .idle := by
  by_contra hc
  exact hn (h.parts.crcTurn hc)

theorem Inv.dec_idle (h : Inv s) (hp : s.hphase ≠ .rxDecode) : s.dec.phase = .idle := by
  by_contra hd
  exact hp (h.decoder.inside hd)

theorem Inv.progress_fresh (h : Inv s) (hr : s.hphase ≠ .rxDecode) (ht : s.hphase ≠ .txFill) : s.progress = .fresh := by
  have hrecv := mt h.parts.receive hr
  have hsend := mt h.parts.send ht
  cases hp : s.progress <;> simp [hp] at hrecv hsend ⊢

/-- No part of an operation is taken in the phases without parts, and the CRC family has no turn there. -/
theorem Inv.quiet (h : Inv s) {p : HPhase} (hp : s.hphase = p) (hq : p ∉ [.boot, .rxDecode, .txFill]) : Quiet s := by
  simp only [List.mem_cons, List.not_mem_nil, or_false, not_or, ← hp] at hq
  obtain ⟨hb, hr, ht⟩ := hq
  exact ⟨h.dec_idle hr, h.crc_idle (not_crcTurn_of_hphase hb hr ht), h.progress_fresh hr ht⟩

/-! ## Operations inside a phase -/

/-- The invariant reads neither the outputs nor the trace, nor the result of a function, nor the kick. -/
theorem Inv.of_outputs (h : Inv s) (ht : t = { s with
    bootOk := t.bootOk, kickPending := t.kickPending, netOut := t.netOut, log := t.log, result := t.result
    feed := t.feed }) : Inv t := by
  rw [ht]
  exact { h with
    memories := { h.memories with }, fields := { h.fields with }, ownership := { h.ownership with }
    inFlight := { h.inFlight with }, wakeup := { h.wakeup with }, payloads := { h.payloads with }
    decoder := { h.decoder with }, parts := { h.parts with } }

/-- An operation of the CRC family, in its turn. -/
theorem Inv.setCrc (h : Inv s) (hturn : CrcTurn s) {c : CrcUnit} (hc : c.phase = .bit → c.cnt < 8) :
    Inv (s.setCrc c) :=
  { h with
    memories := { h.memories with }, fields := { h.fields with }, ownership := { h.ownership with }
    inFlight := { h.inFlight with }, wakeup := { h.wakeup with }, payloads := { h.payloads with }
    decoder := { h.decoder with }, parts := { h.parts with crcTurn := fun _ => hturn }, crcUnit := hc }

/-- What a part of ARB.TXFILL has left for the parts after it (R181 to R183). -/
def PayloadReady (t : State) : Prop :=
  t.progress = .unframed ∨ t.progress = .admitted ∨ t.progress = .summed → ∃ p, txPayload t = some p ∧
    (t.progress ≠ .unframed → t.enc.len = p.length ∧ p.length % 2 = 0 ∧ p.length + 2 ≤ t.cfg.wCap) ∧
    (t.progress = .summed → t.enc.crc = crc16 p)

/-- A part of ARB.TXFILL: Host owns Transmit there, so what stands in the buffer is not yet a frame. -/
theorem Inv.filled (h : Inv s) (hp : s.hphase = .txFill)
    (ht : t = { s with
      crc := t.crc, enc := t.enc, wbuf := t.wbuf, ifb := { s.ifb with wLength := t.ifb.wLength }, log := t.log
      result := t.result, progress := t.progress })
    (hfree : t.crc.phase = .idle) (hm : Memory.wf t.wbuf = true)
    (hprog : t.progress ≠ .decoding ∧ t.progress ≠ .relayed) (hready : PayloadReady t) : Inv t := by
  have htp : t.hphase = .txFill := by rw [ht]; exact hp
  have hd : t.dec.phase = .idle := by rw [ht]; exact h.dec_idle (by simp [hp])
  have hown : t.ifb.wOwner = .host := by rw [ht]; exact h.ownership.sending (by rw [hp]; rfl)
  have hparts : PartsSound t :=
    { receive := by simp [hprog]
      decode := by simp [hd]
      relayed := by simp [hprog]
      send := fun _ => htp
      payload := hready
      crcTurn := by simp [hfree] }
  have hdec : DecoderSound t := by constructor <;> simp [hd]
  have hpay : PayloadsWritten t := by
    refine ⟨?_, by simp [htp], by simp [htp, hown]⟩
    rw [ht]
    exact h.payloads.received
  have hmem : MemoriesCanonical t := by
    refine ⟨?_, hm, ?_, ?_, ?_⟩ <;> rw [ht]
    · exact h.memories.rbuf
    · exact h.memories.rxCopy
    · exact h.memories.levels
    · exact h.memories.out
  rw [ht] at hparts hdec hpay hmem ⊢
  exact { h with
    memories := hmem, fields := { h.fields with }, ownership := { h.ownership with }, inFlight := { h.inFlight with }
    wakeup := { h.wakeup with }, payloads := hpay, decoder := hdec, parts := hparts, crcUnit := by simp [hfree] }

/-! ## Moves of Host along its loop -/

/-- Host moves between phases without parts, and writes its own registers, the owners, the flags and the queue: what is left
are the rules of the loop itself. -/
theorem Inv.of_loop (h : Inv s) (hq : Quiet t)
    (ht : t = { s with
      hphase := t.hphase, progress := t.progress, txDgram := t.txDgram, rxValid := t.rxValid, log := t.log
      irqPending := t.irqPending, kickPending := t.kickPending, txOutstanding := t.txOutstanding
      sockRegistered := t.sockRegistered, wokeIrq := t.wokeIrq, wokeSock := t.wokeSock, netIn := t.netIn
      ifb := { s.ifb with rOwner := t.ifb.rOwner, rTruncated := t.ifb.rTruncated, wOwner := t.ifb.wOwner } })
    (how : OwnershipSafe t) (hfl : OneInFlight t) (hwk : NoLostWakeup t) (hpay : PayloadsWritten t) : Inv t := by
  have hdec := hq.decoder
  have hparts := hq.parts
  rw [ht] at how hfl hwk hpay hdec hparts ⊢
  exact { h with
    memories := { h.memories with }, fields := { h.fields with }, ownership := how, inFlight := hfl, wakeup := hwk
    payloads := hpay, decoder := hdec, parts := hparts }

/-- A move from `p` to `q` takes no new claim on Transmit or on a wake, and does not pass the test of a finished transmit. -/
def HPhase.carries (p q : HPhase) : Bool :=
  decide (q ≠ .wait ∧ q ≠ .txTest ∧ (q.woken = true → p.woken = true) ∧ (q.sending = true → p.sending = true) ∧
    (p.beforeTxDone = true → q.beforeTxDone = true))

/-- Host moves from `p` to the phase of `t`, and writes at most `r_owner`, the truncation flag and its own registers. The
defaults are for a move that has nothing to do with the receive handler and the hand-off. -/
structure Move (p : HPhase) (s t : State) : Prop where
  start : s.hphase = p
  rest : t = { s with
    hphase := t.hphase, progress := t.progress, txDgram := t.txDgram, rxValid := t.rxValid, log := t.log
    ifb := { s.ifb with rOwner := t.ifb.rOwner, rTruncated := t.ifb.rTruncated } } := by rfl
  phases : p.carries t.hphase = true := by rfl
  /-- Entering the receive handler, or staying in it. -/
  receiving : t.hphase.receiving = true → t.ifb.rOwner = .host := by rintro ⟨⟩
  /-- The test of Receive ownership is not passed over. -/
  pending : t.ifb.rOwner = .host → s.ifb.rOwner = .host ∧
    (p.beforeRelease = true → t.hphase.beforeRelease = true) := by exact fun ho => ⟨ho, by rintro ⟨⟩⟩
  copied : (t.hphase = .rxRelease ∧ t.rxValid = true) ∨ t.hphase = .rxDecode →
    s.rxLen ≤ s.cfg.rCap ∧ Memory.written s.rxCopy s.rxLen := by rintro (⟨⟨⟩, -⟩ | ⟨⟨⟩⟩)
  sent : t.hphase = .txRelease → ∃ p, TransmitHolds s p := by rintro ⟨⟩

theorem Inv.move (h : Inv s) {p : HPhase} (hm : Move p s t) (hq : Quiet t) : Inv t := by
  obtain ⟨rfl, hrest, hphases, hrecv, hpend, hcopied, hsent⟩ := hm
  obtain ⟨hwait, htest, hwoken, hsend, hdone⟩ := of_decide_eq_true hphases
  generalize t.hphase = q at *
  generalize t.ifb.rOwner = o at *
  rw [hrest] at hq ⊢
  refine h.of_loop hq rfl ?_ ?_ ?_ ?_
  · exact {
      receiving := hrecv
      waiting := fun hp => absurd hp hwait
      woken := fun hp => h.ownership.woken (hwoken hp)
      sending := fun hp => h.ownership.sending (hsend hp) }
  · exact {
      outstanding := h.inFlight.outstanding
      examined := fun hp => absurd hp htest
      sending := fun hp => h.inFlight.sending (hsend hp) }
  · exact {
      receive := fun ho => (h.wakeup.receive (hpend ho).1).imp_right (Or.imp_right (hpend ho).2)
      transmit := fun ho hx => (h.wakeup.transmit ho hx).imp_right (Or.imp_right hdone) }
  · exact {
      received := fun ho => h.payloads.received (hpend ho).1
      copied := hcopied
      sent := fun ho => ho.elim (fun ho => h.payloads.sent (.inl ho)) hsent }

end

end Sys2Proof.Machine
end

section
/-! PROOFS. The operations that stay in a phase of Host: the CRC family, the serialiser, the environment and the parts of
ARB.TXFILL keep the invariant and are safe. -/

namespace Sys2Proof.Machine

open Out (Safe)

section
variable {s : State}

/-! ## CRC family (R120 to R124) -/

theorem onCrc_safe (h : Inv s) (m : String) (p : CPhase) {c : CrcUnit}
    (hc : s.crc.phase = p → c.phase = .bit → c.cnt < 8) : Safe Inv (onCrc m p s c) :=
  .ite_enabled fun hg => by
    obtain ⟨hturn, hp⟩ := Bool.and_eq_true_iff.mp hg
    exact h.setCrc (crcTurn_iff.mp hturn) (hc (beq_iff_eq.mp hp))

theorem execCrcInit_safe (h : Inv s) : Safe Inv (execCrcInit s) := onCrc_safe h _ _ (by rintro - ⟨⟩)

theorem execCrcLoad_safe (h : Inv s) (b : Byte) : Safe Inv (execCrcLoad b s) :=
  onCrc_safe h _ _ fun _ _ => (by decide : (0 : BitVec 4) < 8)

theorem execCrcBit_safe (h : Inv s) : Safe Inv (execCrcBit s) :=
  .ite_enabled fun hc => onCrc_safe h _ _ fun _ => CrcUnit.bitStep_cnt_lt (of_decide_eq_true hc)

theorem execCrcByte_safe (h : Inv s) (b : Byte) : Safe Inv (execCrcByte b s) :=
  onCrc_safe h _ _ fun _ hb => by rw [CrcUnit.byteStep_phase] at hb; cases hb

theorem execCrc16_safe (h : Inv s) (bs : List Byte) : Safe Inv (execCrc16 bs s) := onCrc_safe h _ _ (by rintro - ⟨⟩)

theorem execCrcReturn_safe (h : Inv s) : Safe Inv (execCrcReturn s) := onCrc_safe h _ _ (by rintro - ⟨⟩)

/-! ## Reference serialiser (R185, R186) -/

theorem execSerLevels_safe (h : Inv s) (w : List Byte) : Safe Inv (execSerLevels w s) := h.of_outputs rfl

theorem execSerDur_safe (h : Inv s) (l : List Bool) : Safe Inv (execSerDur l s) := h.of_outputs rfl

/-! ## Environment (R215 to R218) -/

theorem rMaxLength_toNat (h : Inv s) : s.ifb.rMaxLength.toNat = s.cfg.rCap := by
  rw [h.fields.rMaxLength, BitVec.toNat_ofNat, Nat.mod_eq_of_lt (Config.rCap_of_valid h.config)]

/-- DEV.RXDONE: what the Device stores fits, and the signal it owes announces the frame. -/
theorem execDevRxdone_safe (h : Inv s) (d : List Byte) (st : Word16) (t : Bool) :
    Safe Inv (execDevRxdone d st t s) := .ite_enabled fun _ => by
  split_ifs with hlong
  · rintro b ⟨⟩
  have hmax := rMaxLength_toNat h
  have hlen : (BitVec.ofNat 32 d.length).toNat = d.length := by
    rw [BitVec.toNat_ofNat, Nat.mod_eq_of_lt (by have := Config.rCap_of_valid h.config; omega)]
  have hfits : BitVec.ofNat 32 d.length ≤ s.ifb.rMaxLength := by rw [BitVec.le_def, hlen]; omega
  have hwritten : Memory.written (Memory.writeAll s.rbuf 0 d) (BitVec.ofNat 32 d.length).toNat := by
    rw [hlen]
    simpa using Memory.written_writeAll (Memory.written_zero s.rbuf) d
  refine .read (storeSpan_of_fits (by omega)) ?_
  exact { h with
    memories := { h.memories with rbuf := Memory.wf_writeAll _ _ _ h.memories.rbuf }
    fields := { h.fields with }
    ownership := { h.ownership with receiving := fun _ => rfl }
    inFlight := { h.inFlight with }
    wakeup := ⟨fun _ => .inl rfl, fun _ _ => .inl rfl⟩
    payloads := { h.payloads with received := fun _ => ⟨hfits, hwritten⟩ }
    decoder := { h.decoder with }
    parts := { h.parts with } }

/-- DEV.TXDONE: Host owns Transmit again, and the signal the Device owes announces it. -/
theorem execDevTxdone_safe (h : Inv s) (st : Word16) : Safe Inv (execDevTxdone st s) := .ite_enabled fun _ =>
  { h with
    memories := { h.memories with }
    fields := { h.fields with }
    ownership := ⟨h.ownership.receiving, fun _ _ => rfl, fun hp hw => ⟨rfl, (h.ownership.woken hp hw).2⟩, fun _ => rfl⟩
    inFlight := { h.inFlight with outstanding := by rintro ⟨⟩ }
    wakeup := ⟨fun _ => .inl rfl, fun _ _ => .inl rfl⟩
    payloads := { h.payloads with sent := fun hr => h.payloads.sent (.inr (hr.resolve_left (by rintro ⟨⟩))) }
    decoder := { h.decoder with }
    parts := { h.parts with } }

/-- DEV.SIGNAL: what the Device owed is pending now. -/
theorem execDevSignal_safe (h : Inv s) : Safe Inv (execDevSignal s) := .ite_enabled fun _ =>
  { h with
    memories := { h.memories with }
    fields := { h.fields with }
    ownership := { h.ownership with }
    inFlight := { h.inFlight with }
    wakeup := ⟨fun _ => .inr (.inl rfl), fun _ _ => .inr (.inl rfl)⟩
    payloads := { h.payloads with }
    decoder := { h.decoder with }
    parts := { h.parts with } }

/-- NET.ARRIVE: the queue gets no shorter. -/
theorem execNetArrive_safe (h : Inv s) (g : Datagram) (lost : Bool) : Safe Inv (execNetArrive g lost s) :=
  { h with
    memories := { h.memories with }
    fields := { h.fields with }
    ownership := { h.ownership with
      woken := fun hp hw => (h.ownership.woken hp hw).imp_right fun hne => by cases lost <;> simp [hne] }
    inFlight := { h.inFlight with }
    wakeup := { h.wakeup with }
    payloads := { h.payloads with }
    decoder := { h.decoder with }
    parts := { h.parts with } }

/-! ## The parts of ARB.TXFILL (R181 to R184, R251) -/

theorem State.logIf_eq (s : State) (e : Option Event) : s.logIf e = { s with log := s.log ++ e.toList } := by
  cases e with
  | none => simp [State.logIf]
  | some e => rfl

/-- Outside ENC.CRC's turn the unit is idle in `H_TXFILL`. -/
theorem Inv.crc_idle_filling (h : Inv s) (hp : s.hphase = .txFill) (hn : s.progress ≠ .admitted) :
    s.crc.phase = .idle := h.crc_idle (by simp [CrcTurn, hp, hn])

theorem execRlyOut_safe (h : Inv s) (g : Datagram) : Safe Inv (execRlyOut g s) := .ite_enabled fun hg => by
  simp only [Bool.and_eq_true, beq_iff_eq] at hg
  obtain ⟨⟨hp, hprog⟩, rfl⟩ := hg
  have hfree := h.crc_idle_filling hp (by simp [hprog])
  cases hout : relayOut s.txDgram with
  | ok r =>
    obtain ⟨p, e⟩ := r
    have hpay : txPayload s = some p := by rw [txPayload, hout]
    have hin : Inv (s.advance .unframed) :=
      h.filled hp rfl hfree h.memories.wbuf (by simp) fun _ => ⟨p, hpay, by simp, by simp⟩
    dsimp only
    rw [State.logIf_eq]
    exact hin.of_outputs rfl
  | error e => exact h.filled hp rfl hfree h.memories.wbuf (by simp) (by simp [PayloadReady])

theorem encRefusal_eq_none_iff {cfg : Config} {q : Nat} :
    encRefusal cfg q = none ↔ q % 2 = 0 ∧ q + 2 ≤ cfg.wCap := by
  unfold encRefusal
  split_ifs <;> simp <;> omega

theorem execEncCheck_safe (h : Inv s) (q : Nat) : Safe Inv (execEncCheck q s) := .ite_enabled fun hg => by
  simp only [Bool.and_eq_true, fillingAt_iff, beq_iff_eq, Option.map_eq_some_iff] at hg
  obtain ⟨⟨hp, hprog⟩, p, hpay, rfl⟩ := hg
  have hfree := h.crc_idle_filling hp (by simp [hprog])
  cases href : encRefusal s.cfg p.length with
  | some e => exact h.filled hp rfl hfree h.memories.wbuf (by simp) (by simp [PayloadReady])
  | none =>
    exact h.filled hp rfl hfree h.memories.wbuf (by simp)
      fun _ => ⟨p, hpay, fun _ => ⟨rfl, encRefusal_eq_none_iff.mp href⟩, by simp⟩

/-- What the parts before it left for ENC.CRC or ENC.FILL. -/
theorem Inv.payload_ready (h : Inv s) {p : List Byte} (hpay : txPayload s = some p)
    (hprog : s.progress = .admitted ∨ s.progress = .summed) :
    s.enc.len = p.length ∧ p.length % 2 = 0 ∧ p.length + 2 ≤ s.cfg.wCap ∧
      (s.progress = .summed → s.enc.crc = crc16 p) := by
  obtain ⟨p', hpay', hlen, hcrc⟩ := h.parts.payload (by tauto)
  obtain rfl : p' = p := Option.some.inj (hpay' ▸ hpay)
  obtain ⟨hlen, heven, hfit⟩ := hlen (by rcases hprog with hp | hp <;> simp [hp])
  exact ⟨hlen, heven, hfit, hcrc⟩

theorem execEncCrc_safe (h : Inv s) (p : List Byte) : Safe Inv (execEncCrc p s) := .ite_enabled fun hg => by
  simp only [Bool.and_eq_true, fillingAt_iff, beq_iff_eq] at hg
  obtain ⟨⟨⟨hp, hprog⟩, hpay⟩, -⟩ := hg
  obtain ⟨hlen, heven, hfit, -⟩ := h.payload_ready hpay (.inl hprog)
  have hcrc : (s.crc.run (p.take s.enc.len)).reg = crc16 p := by rw [CrcUnit.run_reg, hlen, List.take_length]
  exact h.filled hp rfl rfl h.memories.wbuf (by simp) fun _ => ⟨p, hpay, fun _ => ⟨hlen, heven, hfit⟩, fun _ => hcrc⟩

theorem execEncFill_safe (h : Inv s) (p : List Byte) : Safe Inv (execEncFill p s) := .ite_enabled fun hg => by
  simp only [Bool.and_eq_true, fillingAt_iff, beq_iff_eq] at hg
  obtain ⟨⟨hp, hprog⟩, hpay⟩ := hg
  obtain ⟨hlen, -, hfit, -⟩ := h.payload_ready hpay (.inr hprog)
  have hown := h.ownership.sending (by rw [hp]; rfl)
  rw [encStore_eq_next.mpr ⟨hown, by rw [hlen, List.take_length]; exact hfit, rfl⟩]
  exact h.filled hp rfl (h.crc_idle_filling hp (by simp [hprog])) (Memory.wf_writeAll _ _ _ h.memories.wbuf) (by simp)
    (by simp [PayloadReady])

/-- ENC of an admitted payload, in `H_TXFILL`. -/
theorem Inv.encCommit_eq (h : Inv s) (hp : s.hphase = .txFill) {p : List Byte}
    (hadm : encRefusal s.cfg p.length = none) : encCommit p s = .next (s.encoded p) :=
  encCommit_eq_encoded (h.ownership.sending (by rw [hp]; rfl)) (encRefusal_eq_none_iff.mp hadm).2

theorem execEnc_safe (h : Inv s) (p : List Byte) : Safe Inv (execEnc p s) := .ite_enabled fun hg => by
  simp only [Bool.and_eq_true, fillingAt_iff, beq_iff_eq] at hg
  obtain ⟨⟨⟨hp, hprog⟩, -⟩, -⟩ := hg
  cases href : encRefusal s.cfg p.length with
  | some e =>
    exact h.filled hp rfl (h.crc_idle_filling hp (by simp [hprog])) h.memories.wbuf (by simp) (by simp [PayloadReady])
  | none =>
    rw [h.encCommit_eq hp href]
    exact h.filled hp rfl rfl (Memory.wf_writeAll _ _ _ h.memories.wbuf) (by simp) (by simp [PayloadReady])

end

end Sys2Proof.Machine
end

section
/-! PROOFS. The decoder's primitives and DEC keep the invariant and are safe: every counter stays in its range, and what a
primitive reads it finds written (R23, R141 to R160). -/

namespace Sys2Proof.Machine

open Out (Safe)

/-- The registers of a decoder past DEC.PARITY: an odd number of LevelBits is written, at most two for each of `m` samples
and the synthetic one, and at most `cap` output bytes (R23, R149 to R153). -/
structure Paired (m cap : Nat) (d : Decoder) : Prop where
  levels : Memory.written d.levels d.lLen
  odd : d.lLen % 2 = 1
  bound : d.lLen ≤ 2 * m + 1
  indexOdd : d.i % 2 = 1
  index : d.i ≤ d.lLen
  nbits : d.nbits ≤ 8
  outLen : d.outLen ≤ cap
  out : Memory.written d.out d.outLen

/-- The phases after DEC.PARITY. -/
def DPhase.afterParity (p : DPhase) : Prop := p = .pair ∨ p = .align ∨ p = .check ∨ p = .done

section
variable {s t : State}

theorem DecoderSound.toPaired (h : DecoderSound s) (hp : s.dec.phase.afterParity) :
    Paired s.rxLen s.cfg.maxFrameBytes s.dec := by
  obtain ⟨hodd, hbound, hi, hil, hn, ho, hw⟩ := h.paired hp
  exact ⟨h.levels (by rintro hidle; simp [DPhase.afterParity, hidle] at hp), hodd, hbound, hi, hil, hn, ho, hw⟩

theorem Paired.sound (h : Paired s.rxLen s.cfg.maxFrameBytes s.dec) (hin : s.hphase = .rxDecode)
    (hp : s.dec.phase.afterParity) (hpair : s.dec.phase = .pair → s.dec.nbits = 8 ∨ s.dec.i + 1 < s.dec.lLen) :
    DecoderSound s where
  inside _ := hin
  levels _ := h.levels
  fresh hq := by rcases hq with hq | hq <;> simp [DPhase.afterParity, hq] at hp
  classify hq := by simp [DPhase.afterParity, hq] at hp
  parity hq := by simp [DPhase.afterParity, hq] at hp
  paired _ := ⟨h.odd, h.bound, h.indexOdd, h.index, h.nbits, h.outLen, h.out⟩
  pair := hpair

/-- In step 1, or just past its last sample: no bit is decoded yet, and there are at most two LevelBits for each sample. -/
theorem DecoderSound.of_sampling (hin : s.hphase = .rxDecode) (hl : Memory.written s.dec.levels s.dec.lLen)
    (hfresh : s.dec.i = 1 ∧ s.dec.nbits = 0 ∧ s.dec.outLen = 0) (hlen : s.dec.lLen ≤ 2 * s.dec.k)
    (hk : s.dec.k ≤ s.rxLen)
    (hp : s.dec.phase = if s.dec.k = s.rxLen then .parity else .classify) : DecoderSound s := by
  split_ifs at hp with hlast
  · constructor <;> simp only [hp, reduceCtorEq, false_or, or_self, forall_true_left, false_imp_iff]
    · exact fun _ => hin
    · exact fun _ => hl
    · exact hfresh
    · omega
  · constructor <;> simp only [hp, reduceCtorEq, or_false, or_self, forall_true_left, false_imp_iff]
    · exact fun _ => hin
    · exact fun _ => hl
    · exact hfresh
    · omega

theorem nextPairPhase_cases (d : Decoder) :
    (nextPairPhase d = .pair ∧ (d.nbits = 8 ∨ d.i + 1 < d.lLen)) ∨ nextPairPhase d = .align := by
  unfold nextPairPhase
  split_ifs <;> simp_all

/-- Where `next_pair_phase()` leads, a full `acc` or a pair is there to be taken (R155). -/
theorem Paired.sound_next {d : Decoder} (h : Paired s.rxLen s.cfg.maxFrameBytes d) (hin : s.hphase = .rxDecode) :
    DecoderSound (s.setDec { d with phase := nextPairPhase d }) := by
  refine Paired.sound (s := s.setDec _) { h with } hin ?_ ?_
  · rcases nextPairPhase_cases d with ⟨hp, -⟩ | hp <;> simp [DPhase.afterParity, hp]
  · intro hp
    rcases nextPairPhase_cases d with ⟨-, hd⟩ | hd
    · exact hd
    · exact absurd (hd.symm.trans hp) (by decide)

/-! ## From one primitive to the next -/

/-- No CRC16 goes on beside a primitive of the decoder other than DEC.CHECK. -/
theorem Inv.crc_idle_decoding (h : Inv s) {p : DPhase} (hp : s.dec.phase = p) (hidle : p ≠ .idle) (hc : p ≠ .check) :
    s.crc.phase = .idle := by
  have hin := h.decoder.inside (hp ▸ hidle)
  exact h.crc_idle (by simp [CrcTurn, hin, hp, hc])

/-- A primitive of a decode that goes on: the rest of the state stays, so the decoder's own part of the invariant is left. -/
theorem Inv.decoded (h : Inv s) (hp : s.dec.phase ≠ .idle) (hc : s.crc.phase = .idle) (hf : DecoderFrame s t)
    (hl : Memory.wf t.dec.levels = true) (ho : Memory.wf t.dec.out = true) (hd : DecoderSound t) : Inv t := by
  have hprog : t.progress = .decoding := hf.progress.trans (h.parts.decode hp)
  have hin : t.hphase = .rxDecode := hf.hphase.trans (h.decoder.inside hp)
  have hcrc : t.crc.phase = .idle := hf.crcIdle hc
  have hparts : PartsSound t := by constructor <;> simp [hprog, hin, hcrc]
  have hrest := hf.rest
  rw [hrest] at hd hparts ⊢
  exact { h with
    memories := { h.memories with levels := hl, out := ho }, fields := { h.fields with }
    ownership := { h.ownership with }, inFlight := { h.inFlight with }, wakeup := { h.wakeup with }
    payloads := { h.payloads with }, decoder := hd, parts := hparts, crcUnit := by simp [hcrc] }

/-- Raising leaves an idle decoder (R148). -/
theorem Inv.raised (h : Inv s) (hp : s.dec.phase ≠ .idle) (hc : s.crc.phase = .idle) {u : State}
    (hf : DecoderFrame s u) (hl : u.dec.levels = s.dec.levels) (ho : u.dec.out = s.dec.out) (e : DecError) :
    Inv (u.raiseDec e) := by
  refine h.decoded hp hc (hf.trans (.setDec u _)) ?_ ?_ (by constructor <;> simp)
  · rw [State.raiseDec_dec, hl]; exact h.memories.levels
  · rw [State.raiseDec_dec, ho]; exact h.memories.out

/-! ## Step 1 (R142 to R147) -/

theorem Inv.copied (h : Inv s) (hp : s.dec.phase ≠ .idle) : s.rxLen ≤ s.cfg.rCap ∧ Memory.written s.rxCopy s.rxLen :=
  h.payloads.copied (.inr (h.decoder.inside hp))

theorem loadSample_ok (h : Inv s) (hp : s.dec.phase = .classify) : ∃ raw, loadSample s = .ok raw := by
  obtain ⟨hcap, hw⟩ := h.copied (by simp [hp])
  exact loadCell_of_written hw (h.decoder.classify hp).1 hcap

theorem onSample_safe {P : State → Prop} {m : String} {c : SampleClass} {raw : Byte} {f : State → Out} (h : Inv s)
    (hf : s.dec.phase = .classify → Safe P (f (s.setDec { s.dec with widthNs := widthNs raw }))) :
    Safe P (onSample m c raw s f) := .ite_enabled fun hg => by
  simp only [classifying, Bool.and_eq_true, decodingAt_iff] at hg
  obtain ⟨⟨-, hp⟩, -⟩ := hg
  obtain ⟨r, hr⟩ := loadSample_ok h hp
  exact .read hr (.ite_enabled fun _ => hf hp)

/-- DEC.SHORT, DEC.AMBIG and DEC.LONG. -/
theorem onSample_raise_safe (h : Inv s) (m : String) (c : SampleClass) (raw : Byte) (e : DecError) :
    Safe Inv (onSample m c raw s fun u => .next (u.raiseDec e)) :=
  onSample_safe h fun hp => h.raised (by simp [hp]) (h.crc_idle_decoding hp (by decide) (by decide))
    (.setDec s { s.dec with widthNs := widthNs raw }) rfl rfl e

/-- DEC.SINGLE and DEC.DOUBLE: two LevelBits for each sample taken are enough room. -/
theorem onSample_toggleAppend_safe (h : Inv s) (m : String) (c : SampleClass) (raw : Byte) {n : Nat} (hn : n ≤ 2) :
    Safe Inv (onSample m c raw s (toggleAppend n)) := onSample_safe h fun hp => by
  have hrun : s.dec.phase ≠ .idle := by simp [hp]
  obtain ⟨hcap, -⟩ := h.copied hrun
  obtain ⟨hk, hlen⟩ := h.decoder.classify hp
  obtain ⟨hi, hnb, ho⟩ := h.decoder.fresh (.inl hp)
  have hroom := Config.lCap_of_valid h.config
  refine .read (storeSpan_of_fits (by simp; omega)) ?_
  refine h.decoded hrun (h.crc_idle_decoding hp (by decide) (by decide)) ((DecoderFrame.setDec s _).trans (.setDec _ _))
    (Memory.wf_writeAll _ _ _ h.memories.levels) h.memories.out ?_
  have hw := Memory.written_writeAll (h.decoder.levels hrun) (List.replicate n (!s.dec.level))
  rw [List.length_replicate] at hw
  exact .of_sampling (h.decoder.inside hrun) hw ⟨hi, hnb, ho⟩ (by simp; omega) hk rfl

/-! ## Step 2 (R149) -/

theorem execDecParity_safe (h : Inv s) : Safe Inv (execDecParity s) := .ite_enabled fun hg => by
  obtain ⟨hin, hp⟩ := decodingAt_iff.mp hg
  have hrun : s.dec.phase ≠ .idle := by simp [hp]
  have hfree := h.crc_idle_decoding hp (by decide) (by decide)
  obtain ⟨hcap, -⟩ := h.copied hrun
  obtain ⟨hi, hnb, ho⟩ := h.decoder.fresh (.inr hp)
  have hlen := h.decoder.parity hp
  have hroom := Config.lCap_of_valid h.config
  have hout : Memory.written s.dec.out s.dec.outLen := ho ▸ Memory.written_zero _
  split_ifs with hc
  · have heven : s.dec.lLen % 2 = 0 := beq_iff_eq.mp hc
    refine .read (storeSpan_of_fits (by simp; omega)) ?_
    have hpaired : Paired s.rxLen s.cfg.maxFrameBytes { s.dec with
        levels := Memory.writeAll s.dec.levels s.dec.lLen [true], lLen := s.dec.lLen + 1, comp := true } :=
      ⟨Memory.written_writeAll (h.decoder.levels hrun) [true], by simp; omega, by simp; omega, by simp [hi], by simp [hi],
        by simp [hnb], by simp [ho], hout⟩
    exact h.decoded hrun hfree (.setDec s _) (Memory.wf_writeAll _ _ _ h.memories.levels) h.memories.out
      (hpaired.sound_next hin)
  · have hodd : s.dec.lLen % 2 = 1 := Nat.mod_two_ne_zero.mp fun h0 => hc (beq_iff_eq.mpr h0)
    have hpaired : Paired s.rxLen s.cfg.maxFrameBytes s.dec :=
      ⟨h.decoder.levels hrun, hodd, by omega, by omega, by omega, by omega, by omega, hout⟩
    exact h.decoded hrun hfree (.setDec s _) h.memories.levels h.memories.out (hpaired.sound_next hin)

/-! ## Step 3 (R150 to R155) -/

theorem loadPair_ok (h : Inv s) (hp : s.dec.phase = .pair) (hi : s.dec.i + 1 < s.dec.lLen) :
    ∃ a b, loadPair s = .ok (a, b) := by
  have hrun : s.dec.phase ≠ .idle := by simp [hp]
  obtain ⟨hcap, -⟩ := h.copied hrun
  have hbound := (h.decoder.toPaired (.inl hp)).bound
  have hroom := Config.lCap_of_valid h.config
  have hw := h.decoder.levels hrun
  obtain ⟨a, ha⟩ := loadCell_of_written (sp := .levels) (cap := s.cfg.lCap) hw (a := s.dec.i) (by omega) (by omega)
  obtain ⟨b, hb⟩ := loadCell_of_written (sp := .levels) (cap := s.cfg.lCap) hw hi (by omega)
  exact ⟨a, b, loadPair_eq_ok.mpr ⟨ha, hb⟩⟩

theorem onPair_safe {P : State → Prop} {m : String} {a b : Bool} {o : Out} (h : Inv s)
    (ho : s.hphase = .rxDecode → s.dec.phase = .pair → s.dec.nbits < 8 → s.dec.i + 1 < s.dec.lLen → Safe P o) :
    Safe P (onPair m a b s o) := .ite_enabled fun hg => by
  simp only [pairing, Bool.and_eq_true, decodingAt_iff, decide_eq_true_eq] at hg
  obtain ⟨⟨⟨hin, hp⟩, hn⟩, hi⟩ := hg
  obtain ⟨x, y, hxy⟩ := loadPair_ok h hp hi
  exact .read hxy (.ite_enabled fun _ => ho hin hp hn hi)

/-- A bit accepted uses up a pair, whatever was logged and counted before (R150 to R152). -/
theorem Inv.bitAccepted (h : Inv s) (hin : s.hphase = .rxDecode) (hp : s.dec.phase = .pair) (hn : s.dec.nbits < 8)
    (hi : s.dec.i + 1 < s.dec.lLen) (bit : Bool) {u : State} (hf : DecoderFrame s u) {n : Nat}
    (hu : u.dec = { s.dec with pairFaults := n }) : Inv (u.setDec (acceptBit bit u.dec)) := by
  obtain ⟨hl, hodd, hbound, hio, hil, -, hol, how⟩ := h.decoder.toPaired (.inl hp)
  have hpaired : Paired u.rxLen u.cfg.maxFrameBytes
      { u.dec with acc := shiftIn u.dec.acc bit, nbits := u.dec.nbits + 1, i := u.dec.i + 2 } := by
    rw [hf.rest, hu]
    exact ⟨hl, hodd, hbound, by simp; omega, by simp; omega, by simp; omega, hol, how⟩
  refine h.decoded (by simp [hp]) (h.crc_idle_decoding hp (by decide) (by decide)) (hf.trans (.setDec u _)) ?_ ?_
    (hpaired.sound_next (hf.hphase.trans hin))
  · rw [State.setDec_dec, hu]; exact h.memories.levels
  · rw [State.setDec_dec, hu]; exact h.memories.out

/-- DEC.PAIR1 and DEC.PAIR0. -/
theorem onPair_acceptBit_safe (h : Inv s) (m : String) (a b bit : Bool) :
    Safe Inv (onPair m a b s (.next (s.setDec (acceptBit bit s.dec)))) :=
  onPair_safe h fun hin hp hn hi => h.bitAccepted hin hp hn hi bit (.refl s) rfl

/-- DEC.PAIRF on either pattern. -/
theorem onPair_pairFault_safe (h : Inv s) (m : String) (a b c : Bool) :
    Safe Inv (onPair m a b s (.next (pairFault c s))) :=
  onPair_safe h fun hin hp hn hi =>
    h.bitAccepted (u := (s.logEvent (.pairFault s.dec.i c)).setDec { s.dec with pairFaults := s.dec.pairFaults + 1 })
      hin hp hn hi false ((DecoderFrame.logEvent s _).trans (.setDec _ _)) rfl

theorem execDecByte_safe (h : Inv s) : Safe Inv (execDecByte s) := .ite_enabled fun hg => by
  simp only [Bool.and_eq_true, decodingAt_iff, decide_eq_true_eq] at hg
  obtain ⟨⟨⟨hin, hp⟩, -⟩, hroom⟩ := hg
  obtain ⟨hl, hodd, hbound, hio, hil, -, -, how⟩ := h.decoder.toPaired (.inl hp)
  refine .read (storeSpan_of_fits hroom) ?_
  have hpaired : Paired s.rxLen s.cfg.maxFrameBytes { s.dec with
      out := Memory.writeAll s.dec.out s.dec.outLen [s.dec.acc], outLen := s.dec.outLen + 1, acc := 0, nbits := 0 } :=
    ⟨hl, hodd, hbound, hio, hil, Nat.zero_le 8, hroom, Memory.written_writeAll how [s.dec.acc]⟩
  exact h.decoded (by simp [hp]) (h.crc_idle_decoding hp (by decide) (by decide)) (.setDec s _) h.memories.levels
    (Memory.wf_writeAll _ _ _ h.memories.out) (hpaired.sound_next hin)

theorem execDecOvf_safe (h : Inv s) : Safe Inv (execDecOvf s) := .ite_enabled fun hg => by
  simp only [Bool.and_eq_true, decodingAt_iff] at hg
  obtain ⟨⟨⟨-, hp⟩, -⟩, -⟩ := hg
  exact h.raised (by simp [hp]) (h.crc_idle_decoding hp (by decide) (by decide)) (.refl s) rfl rfl _

/-! ## Steps 4 and 5 (R156 to R159) -/

/-- From one phase after the pairs to the next. -/
theorem Inv.phaseDone (h : Inv s) (hp : s.dec.phase.afterParity) (hc : s.crc.phase = .idle) {u : State}
    (hf : DecoderFrame s u) (hu : u.dec = s.dec) {p : DPhase} (hq : p = .check ∨ p = .done) :
    Inv (u.setDec { u.dec with phase := p }) := by
  have hrun : s.dec.phase ≠ .idle := by rintro hidle; simp [DPhase.afterParity, hidle] at hp
  have hpaired : Paired u.rxLen u.cfg.maxFrameBytes u.dec := by
    rw [hu, hf.rest]; exact h.decoder.toPaired hp
  have hsound : DecoderSound (u.setDec { u.dec with phase := p }) :=
    Paired.sound (s := u.setDec _) { hpaired with } (hf.hphase.trans (h.decoder.inside hrun)) (.inr (.inr hq))
      (by rcases hq with rfl | rfl <;> simp)
  refine h.decoded hrun hc (hf.trans (.setDec u _)) ?_ ?_ hsound
  · rw [State.setDec_dec, hu]; exact h.memories.levels
  · rw [State.setDec_dec, hu]; exact h.memories.out

theorem execDecAlign_safe (h : Inv s) : Safe Inv (execDecAlign s) := .ite_enabled fun hg => by
  obtain ⟨-, hp⟩ := decodingAt_iff.mp hg
  have hfree := h.crc_idle_decoding hp (by decide) (by decide)
  split_ifs
  · exact h.phaseDone (.inr (.inl hp)) hfree (.refl s) rfl (.inl rfl)
  · exact h.raised (by simp [hp]) hfree (.refl s) rfl rfl _

theorem execDecRunt_safe (h : Inv s) : Safe Inv (execDecRunt s) := .ite_enabled fun hg => by
  simp only [Bool.and_eq_true, decodingAt_iff, decide_eq_true_eq] at hg
  obtain ⟨⟨hin, hp⟩, hlen⟩ := hg
  have hturn : ¬CrcTurn s := by simp [CrcTurn, hin, hlen]
  exact h.raised (by simp [hp]) (h.crc_idle hturn) (.refl s) rfl rfl _

theorem loadOut_ok (h : Inv s) (hp : s.dec.phase.afterParity) : ∃ bs, loadOut s = .ok bs :=
  loadSpan_of_written (h.decoder.toPaired hp).out (h.decoder.toPaired hp).outLen

theorem execDecCheck_safe (h : Inv s) : Safe Inv (execDecCheck s) := .ite_enabled fun hg => by
  simp only [Bool.and_eq_true, decodingAt_iff, crcFree_iff] at hg
  obtain ⟨⟨⟨-, hp⟩, -⟩, hfree⟩ := hg
  have hafter : s.dec.phase.afterParity := .inr (.inr (.inl hp))
  obtain ⟨bs, hbs⟩ := loadOut_ok h hafter
  refine .read hbs ?_
  have hrun := DecoderFrame.setCrc_run s (bs.take (bs.length - 2))
  dsimp only
  split_ifs
  · exact h.phaseDone hafter hfree hrun rfl (.inr rfl)
  · exact h.raised (by simp [hp]) hfree hrun rfl rfl _

theorem execDecDone_safe (h : Inv s) : Safe Inv (execDecDone s) := .ite_enabled fun hg => by
  obtain ⟨-, hp⟩ := decodingAt_iff.mp hg
  obtain ⟨bs, hbs⟩ := loadOut_ok h (.inr (.inr (.inr hp)))
  exact .read hbs (h.decoded (by simp [hp]) (h.crc_idle_decoding hp (by decide) (by decide)) (.setDec s _)
    h.memories.levels h.memories.out (by constructor <;> simp))

/-! ## DEC (R141, R160) -/

theorem execDecStart_safe (h : Inv s) : Safe Inv (execDecStart s) := .ite_enabled fun hg => by
  simp only [decodeReady, Bool.and_eq_true, decodingAt_iff, beq_iff_eq] at hg
  obtain ⟨⟨hin, hp⟩, -⟩ := hg
  have hfree : s.crc.phase = .idle := h.crc_idle (by simp [CrcTurn, hin, hp])
  exact { h with
    memories := { h.memories with }, fields := { h.fields with }, ownership := { h.ownership with }
    inFlight := { h.inFlight with }, wakeup := { h.wakeup with }, payloads := { h.payloads with }
    decoder := .of_sampling hin (Memory.written_zero _) ⟨rfl, rfl, rfl⟩ (Nat.le_refl 0) (Nat.zero_le _)
      (if_congr eq_comm rfl rfl)
    parts := by constructor <;> simp [hin, hfree]
    crcUnit := fun hb => absurd (hfree.symm.trans hb) (by decide) }

/-- The decoder always finds the data that selects its next operation. -/
theorem decOp_ok (h : Inv s) : ∃ i, decOp s = .ok i := by
  unfold decOp
  cases hp : s.dec.phase with
  | classify =>
    obtain ⟨raw, hr⟩ := loadSample_ok h hp
    exact ⟨_, by rw [hr]⟩
  | pair =>
    by_cases hn : s.dec.nbits = 8
    · simp only [hn, if_true]
      split_ifs <;> exact ⟨_, rfl⟩
    · obtain ⟨a, b, hab⟩ := loadPair_ok h hp ((h.decoder.pair hp).resolve_left hn)
      exact ⟨_, by rw [if_neg hn, hab]⟩
  | check => dsimp only; split_ifs <;> exact ⟨_, rfl⟩
  | idle | parity | align | done => exact ⟨_, rfl⟩

theorem decStep_safe (h : Inv s) : Safe Inv (decStep s) := by
  obtain ⟨i, hi⟩ := decOp_ok h
  unfold decStep
  split
  · next hr => rw [hi] at hr; cases hr
  · exact execDecStart_safe h
  · exact onSample_raise_safe h _ _ _ _
  · exact onSample_toggleAppend_safe h _ _ _ (by decide)
  · exact onSample_raise_safe h _ _ _ _
  · exact onSample_toggleAppend_safe h _ _ _ (by decide)
  · exact onSample_raise_safe h _ _ _ _
  · exact execDecParity_safe h
  · exact onPair_acceptBit_safe h _ _ _ _
  · exact onPair_acceptBit_safe h _ _ _ _
  · exact onPair_pairFault_safe h _ _ _ _
  · exact onPair_pairFault_safe h _ _ _ _
  · exact execDecByte_safe h
  · exact execDecOvf_safe h
  · exact execDecAlign_safe h
  · exact execDecRunt_safe h
  · exact execDecCheck_safe h
  · exact execDecDone_safe h
  · exact .notEnabled _

theorem decLoop_safe (n : Nat) (h : Inv s) : Safe Inv (decLoop n s) := by
  induction n generalizing s with
  | zero => exact h
  | succ n ih =>
    unfold decLoop
    split_ifs
    · exact h
    · exact (decStep_safe h).and_then fun u hu => ih hu

theorem decRun_safe (h : Inv s) : Safe Inv (decRun s) := (execDecStart_safe h).and_then fun _ hu => decLoop_safe _ hu

theorem execDec_safe (h : Inv s) : Safe Inv (execDec s) := .ite_enabled fun _ => decRun_safe h

/-- RLY.IN marks the frame as sent (R250, R252). -/
theorem execRlyIn_safe (h : Inv s) (f : List Byte) : Safe Inv (execRlyIn f s) := .ite_enabled fun hg => by
  simp only [decodeReturned, Bool.and_eq_true, beq_iff_eq] at hg
  obtain ⟨⟨⟨hin, hp⟩, -⟩, hframe⟩ := hg
  have hresult : ∃ f n c, s.dec.result = .frame f n c := by
    cases hr : s.dec.result with
    | frame f n c => exact ⟨f, n, c, rfl⟩
    | error e => simp [decodedFrame, hr] at hframe
  have hfree : s.crc.phase = .idle := h.crc_idle (by simp [CrcTurn, hin, hp])
  have hparts : PartsSound (s.advance .relayed) :=
    { receive := fun _ => hin
      decode := fun hd => absurd hp hd
      relayed := fun _ => hresult
      send := by simp
      payload := by simp
      crcTurn := fun hc => absurd hfree hc }
  have hmarked : Inv (s.advance .relayed) :=
    { h with
      memories := { h.memories with }, fields := { h.fields with }, ownership := { h.ownership with }
      inFlight := { h.inFlight with }, wakeup := { h.wakeup with }, payloads := { h.payloads with }
      decoder := { h.decoder with }, parts := hparts }
  cases relayIn f <;> exact hmarked.of_outputs rfl

end

end Sys2Proof.Machine
end

section
/-! PROOFS. The arbiter's operations keep the invariant and are safe; so does every step of every agent (O55, O58). -/

namespace Sys2Proof.Machine

open Out (Safe)

section
variable {s t : State}

/-- The payloads stay as they are found where Host neither copies nor hands off. -/
theorem Inv.payloads_elsewhere (h : Inv s) (ht : (t.cfg, t.ifb, t.rbuf, t.wbuf) = (s.cfg, s.ifb, s.rbuf, s.wbuf))
    (hq : t.hphase ≠ .rxRelease ∧ t.hphase ≠ .rxDecode ∧ t.hphase ≠ .txRelease) : PayloadsWritten t := by
  obtain ⟨hcfg, hifb, hrbuf, hwbuf⟩ : _ ∧ _ ∧ _ ∧ _ := by simpa only [Prod.mk.injEq] using ht
  refine ⟨?_, by simp [hq], ?_⟩
  · rw [hifb, hrbuf]
    exact h.payloads.received
  · intro ho
    obtain ⟨p, hp⟩ := h.payloads.sent (.inl (hifb ▸ ho.resolve_right hq.2.2))
    exact ⟨p, by rw [TransmitHolds, hcfg, hifb, hwbuf]; exact hp⟩

/-! ## Boot, wait and acknowledge (R201 to R203, R223, R224) -/

theorem execArbBoot_safe (h : Inv s) : Safe Inv (execArbBoot s) := .at_phase fun hp => .ite_enabled fun hfree => by
  have hq : Quiet s :=
    ⟨h.dec_idle (by simp [hp]), crcFree_iff.mp hfree, h.progress_fresh (by simp [hp]) (by simp [hp])⟩
  split_ifs <;>
    exact h.move { start := hp } { hq with }

/-- The socket is registered only while Host owns Transmit. -/
theorem execArbArm_safe (h : Inv s) : Safe Inv (execArbArm s) := .at_phase fun hp =>
  h.of_loop { h.quiet hp (by decide) with } rfl
    ⟨by rintro ⟨⟩, fun _ hs => beq_iff_eq.mp hs, by rintro ⟨⟩, by rintro ⟨⟩⟩
    ⟨h.inFlight.outstanding, by rintro ⟨⟩, by rintro ⟨⟩⟩
    ⟨fun ho => by simpa [hp, HPhase.beforeRelease] using h.wakeup.receive ho,
      fun ho hx => by simpa [hp, HPhase.beforeTxDone] using h.wakeup.transmit ho hx⟩
    (h.payloads_elsewhere rfl (by simp))

/-- A socket that wakes Host was registered, so Host owns Transmit, and a datagram waits. -/
theorem execArbWait_safe (h : Inv s) : Safe Inv (execArbWait s) := .at_phase fun hp => .ite_enabled fun _ => by
  have hwoken : sockReady s = true → s.ifb.wOwner = .host ∧ s.netIn ≠ [] := by
    simp only [sockReady, Bool.and_eq_true, Bool.not_eq_true', List.isEmpty_eq_false_iff]
    exact fun hr => ⟨h.ownership.waiting hp hr.1, hr.2⟩
  exact h.of_loop { h.quiet hp (by decide) with } rfl
    ⟨by rintro ⟨⟩, by rintro ⟨⟩, fun _ => hwoken, by rintro ⟨⟩⟩
    ⟨h.inFlight.outstanding, by rintro ⟨⟩, by rintro ⟨⟩⟩
    ⟨fun _ => .inr (.inr rfl), fun _ _ => .inr (.inr rfl)⟩
    (h.payloads_elsewhere rfl (by simp))

theorem execArbTick_safe (h : Inv s) : Safe Inv (execArbTick s) := .at_phase fun hp => .ite_enabled fun _ =>
  h.of_loop { h.quiet hp (by decide) with } rfl
    ⟨by rintro ⟨⟩, by rintro ⟨⟩, by rintro - ⟨⟩, by rintro ⟨⟩⟩
    ⟨h.inFlight.outstanding, by rintro ⟨⟩, by rintro ⟨⟩⟩
    ⟨fun _ => .inr (.inr rfl), fun _ _ => .inr (.inr rfl)⟩
    (h.payloads_elsewhere rfl (by simp))

/-- What is acknowledged is still to be tested in this pass. -/
theorem execArbAck_safe (h : Inv s) : Safe Inv (execArbAck s) := .at_phase fun hp =>
  h.of_loop { h.quiet hp (by decide) with } rfl
    ⟨by rintro ⟨⟩, by rintro ⟨⟩, fun _ => h.ownership.woken (by rw [hp]; rfl), by rintro ⟨⟩⟩
    ⟨h.inFlight.outstanding, by rintro ⟨⟩, by rintro ⟨⟩⟩
    ⟨fun _ => .inr (.inr rfl), fun _ _ => .inr (.inr rfl)⟩
    (h.payloads_elsewhere rfl (by simp))

/-! ## The receive handler (R204 to R209) -/

theorem execArbRxtest_safe (h : Inv s) : Safe Inv (execArbRxtest s) := .at_phase fun hp => by
  have hq := h.quiet hp (by decide)
  split_ifs with hown
  · exact h.move { start := hp, receiving := fun _ => hown, pending := fun ho => ⟨ho, fun _ => rfl⟩ } { hq with }
  · exact h.move { start := hp, pending := fun ho => absurd ho hown } { hq with }

/-- The dump reads no more than was received and fits (R205). -/
theorem loadDump_ok (h : Inv s) (ho : s.ifb.rOwner = .host) :
    ∃ p, loadSpan .rbuf s.cfg.rCap s.rbuf 0 (dumpLength s) = .ok p := by
  obtain ⟨-, hw⟩ := h.payloads.received ho
  have hmax := rMaxLength_toNat h
  exact loadSpan_of_written (fun j hj => hw j (hj.trans_le (min_le_left _ _))) (hmax ▸ min_le_right _ _)

theorem execArbRxstatus_safe (h : Inv s) : Safe Inv (execArbRxstatus s) := .at_phase fun hp => by
  have hown := h.ownership.receiving (by rw [hp]; rfl)
  have hmove (v : Bool) (l : List Event) : Inv (State.goto { s with rxValid := v, log := l } .rxTrunc) :=
    h.move { start := hp, receiving := fun _ => hown, pending := fun ho => ⟨ho, fun _ => rfl⟩ } { h.quiet hp (by decide) with }
  refine .owns_rx hown ?_
  unfold rejectStatus
  split_ifs
  · exact hmove false _
  · exact hmove true s.log
  · obtain ⟨p, hdump⟩ := loadDump_ok h hown
    exact .read hdump (hmove false _)
  · exact hmove false _

theorem clearTruncated_eq (s : State) : ∃ l b,
    clearTruncated s = { s with log := s.log ++ l, ifb := { s.ifb with rTruncated := b } } := by
  unfold clearTruncated
  split_ifs
  · exact ⟨_, _, rfl⟩
  · exact ⟨[], s.ifb.rTruncated, by simp⟩

theorem execArbRxtrunc_safe (h : Inv s) : Safe Inv (execArbRxtrunc s) := .at_phase fun hp => by
  have hown := h.ownership.receiving (by rw [hp]; rfl)
  obtain ⟨l, b, hclear⟩ := clearTruncated_eq s
  refine .owns_rx hown ?_
  rw [hclear]
  cases s.rxValid <;>
    exact h.move
      { start := hp, receiving := fun _ => hown, pending := fun ho => ⟨ho, fun _ => rfl⟩, copied := by simp }
      { h.quiet hp (by decide) with }

theorem execArbRxcopy_safe (h : Inv s) : Safe Inv (execArbRxcopy s) := .at_phase fun hp => by
  have hown := h.ownership.receiving (by rw [hp]; rfl)
  have hq := h.quiet hp (by decide)
  obtain ⟨hle, hw⟩ := h.payloads.received hown
  have hcap : s.ifb.rReceivedLength.toNat ≤ s.cfg.rCap := rMaxLength_toNat h ▸ hle
  obtain ⟨xs, hxs⟩ := loadSpan_of_written (sp := .rbuf) hw hcap
  have hlen : xs.length = s.ifb.rReceivedLength.toNat := (loadSpan_eq_ok.mp hxs).1
  refine .owns_rx hown (.read hxs (.read (storeSpan_of_fits (by omega)) ?_))
  have hcopy : Memory.written (Memory.writeAll s.rxCopy 0 xs) s.ifb.rReceivedLength.toNat := by
    rw [← hlen]
    simpa using Memory.written_writeAll (Memory.written_zero s.rxCopy) xs
  have hstored : Inv { s with
      rxLen := s.ifb.rReceivedLength.toNat, rxCopy := Memory.writeAll s.rxCopy 0 xs } :=
    { h with
      memories := { h.memories with rxCopy := Memory.wf_writeAll _ _ _ h.memories.rxCopy }
      fields := { h.fields with }, ownership := { h.ownership with }, inFlight := { h.inFlight with }
      wakeup := { h.wakeup with }, payloads := { h.payloads with copied := by simp [hp] }
      decoder := Quiet.decoder { hq with }, parts := { h.parts with } }
  exact hstored.move {
    start := hp, receiving := fun _ => hown, pending := fun ho => ⟨ho, fun _ => rfl⟩
    copied := fun _ => ⟨hcap, hcopy⟩ } { hq with }

theorem execArbRxrelease_safe (h : Inv s) : Safe Inv (execArbRxrelease s) := .at_phase fun hp => by
  refine .owns_rx (h.ownership.receiving (by rw [hp]; rfl)) ?_
  have hq := h.quiet hp (by decide)
  cases hv : s.rxValid with
  | true =>
    have hcopied := h.payloads.copied (.inl ⟨hp, hv⟩)
    exact h.move { start := hp, pending := by rintro ⟨⟩, copied := fun _ => hcopied } { hq with }
  | false => exact h.move { start := hp, pending := by rintro ⟨⟩ } { hq with }

/-- ARB.RXDECODE logs or broadcasts what DEC returned, at most one datagram (R209, R252). -/
theorem deliver_eq (s : State) : ∃ l g, g.length ≤ 1 ∧
    deliver s = { s with log := s.log ++ l, netOut := s.netOut ++ g } := by
  have hsame : s = { s with log := s.log ++ [], netOut := s.netOut ++ [] } := by simp
  have hlog (e : Event) : s.logEvent e = { s with log := s.log ++ [e], netOut := s.netOut ++ [] } := by
    simp [State.logEvent]
  have hsend (g : Datagram) : s.broadcast g = { s with log := s.log ++ [], netOut := s.netOut ++ [g] } := by
    simp [State.broadcast]
  unfold deliver
  split
  · split
    · split_ifs
      · exact ⟨[], [], by simp, hsame⟩
      · exact ⟨[], _, by simp, hsend _⟩
    · exact ⟨_, [], by simp, hlog _⟩
  · exact ⟨_, [], by simp, hlog _⟩

/-- Handling what DEC returned ends the receive handler. -/
theorem Inv.decodeHandled (h : Inv s) (hp : s.hphase = .rxDecode) (hd : s.dec.phase = .idle)
    (hc : s.crc.phase = .idle) : Inv s.decodeHandled := by
  obtain ⟨l, g, -, hdeliv⟩ := deliver_eq s
  rw [State.decodeHandled, hdeliv]
  have hin : Inv { s with log := s.log ++ l, netOut := s.netOut ++ g } := h.of_outputs rfl
  exact hin.move { start := hp } ⟨hd, hc, rfl⟩

theorem execArbRxdecode_safe (h : Inv s) : Safe Inv (execArbRxdecode s) := .at_phase fun hp => .ite_enabled fun hg => by
  simp only [Bool.and_eq_true, beq_iff_eq, crcFree_iff] at hg
  obtain ⟨hd, hc⟩ := hg
  have honce : Safe (fun u => Inv u ∧ u.hphase = .rxDecode ∧ u.dec.phase = .idle ∧ u.crc.phase = .idle)
      (decodeOnce s) := by
    unfold decodeOnce
    split_ifs
    · exact ⟨h, hp, hd, hc⟩
    · refine (decRun_safe h).and_next fun u hu => ?_
      obtain ⟨-, -, -, hframe, hidle⟩ := decRun_ends hu
      exact ⟨hframe.hphase.trans hp, hidle, hframe.crcIdle hc⟩
  exact honce.and_then fun u ⟨hu, hup, hud, huc⟩ => hu.decodeHandled hup hud huc

/-! ## The send handler (R210 to R214) -/

/-- ARB.TXDONE forgets a transmit exactly when Host owns the buffer again. -/
theorem examineTransmit_eq (s : State) : ∃ l,
    examineTransmit s = { s with log := s.log ++ l, txOutstanding := s.txOutstanding && s.ifb.wOwner == .device } := by
  unfold examineTransmit
  by_cases hf : txFinished s = true
  · have hhost : (s.txOutstanding && s.ifb.wOwner == .device) = false := by
      simp only [txFinished, Bool.and_eq_true, beq_iff_eq] at hf
      simp [hf]
    rw [if_pos hf, State.logIf_eq, hhost]
    exact ⟨_, rfl⟩
  · have hkept : (s.txOutstanding && s.ifb.wOwner == .device) = s.txOutstanding := by
      cases hx : s.txOutstanding <;> cases ho : s.ifb.wOwner <;> simp [txFinished, hx, ho] at hf ⊢
    rw [if_neg hf, hkept]
    exact ⟨[], by simp⟩

theorem execArbTxdone_safe (h : Inv s) : Safe Inv (execArbTxdone s) := .at_phase fun hp => by
  obtain ⟨l, hrest⟩ := examineTransmit_eq s
  have hwoken := h.ownership.woken (by rw [hp]; rfl)
  rw [hrest]
  exact h.of_loop { h.quiet hp (by decide) with } rfl
    ⟨by rintro ⟨⟩, by rintro ⟨⟩, fun _ => hwoken, by rintro ⟨⟩⟩
    ⟨fun ho => by simp [h.inFlight.outstanding ho, show s.ifb.wOwner = .device from ho],
      fun _ hw => by simp [(hwoken hw).1], by rintro ⟨⟩⟩
    ⟨fun ho => by simpa [hp, HPhase.beforeRelease] using h.wakeup.receive ho,
      fun ho hx => by simp [show s.ifb.wOwner = .host from ho] at hx⟩
    (h.payloads_elsewhere rfl (by simp))

theorem execArbTxtest_safe (h : Inv s) : Safe Inv (execArbTxtest s) := .at_phase fun hp => by
  have hq := h.quiet hp (by decide)
  split_ifs with hw
  · obtain ⟨hown, hne⟩ := h.ownership.woken (by rw [hp]; rfl) hw
    have hdone := h.inFlight.examined hp hw
    obtain ⟨g, gs, hin⟩ := List.exists_cons_of_ne_nil hne
    rw [hin]
    exact h.of_loop { hq with } rfl
      ⟨by rintro ⟨⟩, by rintro ⟨⟩, by rintro ⟨⟩, fun _ => hown⟩
      ⟨h.inFlight.outstanding, by rintro ⟨⟩, fun _ => hdone⟩
      ⟨fun ho => by simpa [hp, HPhase.beforeRelease] using h.wakeup.receive ho,
        fun _ hx => absurd (hdone.symm.trans hx) (by decide)⟩
      (h.payloads_elsewhere rfl (by simp))
  · exact h.move { start := hp } { hq with }

theorem execArbTxowner_safe (h : Inv s) : Safe Inv (execArbTxowner s) := .at_phase fun hp => by
  have hq := h.quiet hp (by decide)
  split_ifs with hown <;>
    exact h.move { start := hp } { hq with }

/-- A datagram dropped in ARB.TXFILL ends the send handler (R213). -/
theorem Inv.dropped (h : Inv s) (hp : s.hphase = .txFill) (hfree : s.crc.phase = .idle) (e : Event) :
    Inv ((dropDatagram e s).advance .fresh) :=
  h.move { start := hp } ⟨h.dec_idle (by simp [hp]), hfree, rfl⟩

/-- ENC leaves the whole wire frame and its count (R183, R184). -/
theorem transmitHolds_encoded {p : List Byte} (hadm : encRefusal s.cfg p.length = none) : TransmitHolds (s.encoded p) p := by
  obtain ⟨heven, hfit⟩ := encRefusal_eq_none_iff.mp hadm
  have hframe : p ++ [hi (s.crc.run p).reg, lo (s.crc.run p).reg] = wireFrame p := by rw [CrcUnit.run_reg]; rfl
  refine ⟨heven, hfit, ?_, rfl⟩
  rw [← hframe]
  exact Memory.holds_writeAll _ _

theorem fillPayload_safe (h : Inv s) (hp : s.hphase = .txFill) (hfree : s.crc.phase = .idle) (p : List Byte) :
    Safe Inv (fillPayload p s) := by
  unfold fillPayload
  cases href : encRefusal s.cfg p.length with
  | some e => exact h.dropped hp hfree _
  | none =>
    dsimp only
    rw [h.encCommit_eq hp href, Out.andThen_next]
    have hin : Inv ((s.encoded p).advance .fresh) :=
      h.filled hp rfl rfl (Memory.wf_writeAll _ _ _ h.memories.wbuf) (by simp) (by simp [PayloadReady])
    exact hin.move { start := hp, sent := fun _ => ⟨p, transmitHolds_encoded href⟩ }
      ⟨h.dec_idle (by simp [hp]), rfl, rfl⟩

theorem execArbTxfill_safe (h : Inv s) : Safe Inv (execArbTxfill s) := .at_phase fun hp => .ite_enabled fun hc => by
  have hfree := crcFree_iff.mp hc
  cases relayOut s.txDgram with
  | error e => exact h.dropped hp hfree _
  | ok r =>
    obtain ⟨p, e⟩ := r
    have hlogged (l : List Event) : Safe Inv (fillPayload p { s with log := l }) :=
      fillPayload_safe (s := { s with log := l }) (h.of_outputs rfl) hp hfree p
    dsimp only
    rw [State.logIf_eq]
    exact hlogged _

/-- The hand-off: what was filled is in flight, and is known to be (R214). -/
theorem execArbTxrelease_safe (h : Inv s) : Safe Inv (execArbTxrelease s) := .at_phase fun hp =>
  .owns_tx (h.ownership.sending (by rw [hp]; rfl)) <|
    h.of_loop { h.quiet hp (by decide) with } rfl
      ⟨by rintro ⟨⟩, by rintro ⟨⟩, by rintro ⟨⟩, by rintro ⟨⟩⟩
      ⟨fun _ => rfl, by rintro ⟨⟩, by rintro ⟨⟩⟩
      ⟨fun ho => by simpa [hp, HPhase.beforeRelease] using h.wakeup.receive ho, by rintro ⟨⟩⟩
      ⟨h.payloads.received, by simp, fun _ => h.payloads.sent (.inr hp)⟩

/-! ## Every operation, every step -/

theorem exec_safe (i : Instr) (h : Inv s) : Safe Inv (exec i s) := by
  cases i with
  | crcInit => exact execCrcInit_safe h
  | crcLoad b => exact execCrcLoad_safe h b
  | crcBit => exact execCrcBit_safe h
  | crcByte b => exact execCrcByte_safe h b
  | crc16 bs => exact execCrc16_safe h bs
  | decStart => exact execDecStart_safe h
  | decShort raw => exact onSample_raise_safe h _ _ raw _
  | decSingle raw => exact onSample_toggleAppend_safe h _ _ raw (by decide)
  | decAmbig raw => exact onSample_raise_safe h _ _ raw _
  | decDouble raw => exact onSample_toggleAppend_safe h _ _ raw (by decide)
  | decLong raw => exact onSample_raise_safe h _ _ raw _
  | decParity => exact execDecParity_safe h
  | decPair1 => exact onPair_acceptBit_safe h _ _ _ _
  | decPair0 => exact onPair_acceptBit_safe h _ _ _ _
  | decPairf00 => exact onPair_pairFault_safe h _ _ _ _
  | decPairf11 => exact onPair_pairFault_safe h _ _ _ _
  | decByte => exact execDecByte_safe h
  | decOvf => exact execDecOvf_safe h
  | decAlign => exact execDecAlign_safe h
  | decRunt => exact execDecRunt_safe h
  | decCheck => exact execDecCheck_safe h
  | decDone => exact execDecDone_safe h
  | dec => exact execDec_safe h
  | encCheck q => exact execEncCheck_safe h q
  | encCrc p => exact execEncCrc_safe h p
  | encFill p => exact execEncFill_safe h p
  | enc p => exact execEnc_safe h p
  | serLevels w => exact execSerLevels_safe h w
  | serDur l => exact execSerDur_safe h l
  | arbBoot => exact execArbBoot_safe h
  | arbArm => exact execArbArm_safe h
  | arbWait => exact execArbWait_safe h
  | arbTick => exact execArbTick_safe h
  | arbAck => exact execArbAck_safe h
  | arbRxtest => exact execArbRxtest_safe h
  | arbRxstatus => exact execArbRxstatus_safe h
  | arbRxtrunc => exact execArbRxtrunc_safe h
  | arbRxcopy => exact execArbRxcopy_safe h
  | arbRxrelease => exact execArbRxrelease_safe h
  | arbRxdecode => exact execArbRxdecode_safe h
  | arbTxdone => exact execArbTxdone_safe h
  | arbTxtest => exact execArbTxtest_safe h
  | arbTxowner => exact execArbTxowner_safe h
  | arbTxfill => exact execArbTxfill_safe h
  | arbTxrelease => exact execArbTxrelease_safe h
  | devRxdone d st t => exact execDevRxdone_safe h d st t
  | devTxdone st => exact execDevTxdone_safe h st
  | devSignal => exact execDevSignal_safe h
  | netArrive g lost => exact execNetArrive_safe h g lost
  | rlyIn f => exact execRlyIn_safe h f
  | rlyOut g => exact execRlyOut_safe h g

/-- The one thing a selection can fail on is that Host has halted. -/
theorem select_error (h : Inv s) {r : Fault} (hr : select s = .error r) : r = .halted := by
  unfold select at hr
  split_ifs at hr
  · obtain ⟨i, hi⟩ := decOp_ok h
    rw [hi] at hr
    cases hr
  · unfold hostOp at hr
    split at hr <;> cases hr
    rfl

theorem resetFor_inv (cfg : Config) (b : Bool) (f : List Byte) (hcfg : cfg.valid = true) :
    Inv (State.resetFor cfg b f) := by
  have hq : Quiet (State.resetFor cfg b f) := ⟨rfl, rfl, rfl⟩
  obtain ⟨hrbuf, hwbuf, hcopy, hlevels, hout⟩ := State.resetFor_memories cfg b f
  exact {
    config := hcfg
    memories := ⟨hrbuf, hwbuf, hcopy, hlevels, hout⟩
    fields := ⟨rfl, rfl, rfl⟩
    ownership := ⟨by rintro ⟨⟩, by rintro ⟨⟩, by rintro ⟨⟩, by rintro ⟨⟩⟩
    inFlight := ⟨by rintro ⟨⟩, by rintro ⟨⟩, by rintro ⟨⟩⟩
    wakeup := ⟨by rintro ⟨⟩, by rintro - ⟨⟩⟩
    payloads := ⟨by rintro ⟨⟩, by rintro (⟨⟨⟩, -⟩ | ⟨⟨⟩⟩), by rintro (⟨⟨⟩⟩ | ⟨⟨⟩⟩)⟩
    decoder := hq.decoder
    parts := hq.parts
    crcUnit := by rintro ⟨⟩ }

/-- A step from the invariant is safe and ends in it, or there is none because Host has halted. -/
theorem step_safe (h : Inv s) : step s = .fault .halted ∨ Safe Inv (step s) := by
  have hfeed (f : List Byte) : Inv { s with feed := f } := h.of_outputs rfl
  unfold step
  split
  · split_ifs
    · exact .inr (execCrcReturn_safe h)
    · cases hsel : select s with
      | ok i => exact .inr (exec_safe i h)
      | error r => exact .inl (by rw [select_error h hsel])
  · split
    · exact .inr (resetFor_inv _ _ _ h.config)
    · exact .inr (execCrcReturn_safe (hfeed _))
    · cases decode s.feed with
      | ok r => exact .inr (exec_safe r.1 (hfeed r.2))
      | error e => exact .inr (by rintro b ⟨⟩)

end

/-- Settles O55: each operation is safe for the invariant, by the part of the state it touches, and so is a step. -/
theorem stepsKeepTheInvariant : Obligations.StepsKeepTheInvariant := by
  intro s t h hstep
  obtain hhalt | hsafe := step_safe h
  · rw [hhalt] at hstep
    cases hstep
  · exact hsafe.of_next hstep

/-- Settles O58: what the operations read the invariant says is written, and what they touch Host owns. -/
theorem noStepFaultsOrBreaksOwnership : Obligations.NoStepFaultsOrBreaksOwnership := by
  intro s h
  obtain hhalt | hsafe := step_safe h
  · rw [hhalt]
    exact ⟨fun r hr => (Host.Outcome.fault.inj hr).symm, by rintro b ⟨⟩⟩
  · exact ⟨fun r hr => absurd hr (hsafe.not_fault r), hsafe.not_breaksOwnership⟩

/-- Settles O56: at reset the units are idle, the buffers with the party that needs none written, and nothing is owed. -/
theorem resetMeetsTheInvariant : Obligations.ResetMeetsTheInvariant :=
  ⟨resetFor_inv _ _ _ (by decide), resetFor_inv⟩

/-- Settles O1, field by field; a reset request is the two bytes `traceControl` reads. -/
theorem resetLeavesTheSpecifiedState : Obligations.ResetLeavesTheSpecifiedState := by
  refine ⟨fun cfg b f => ⟨_, rfl, ?_⟩, ⟨rfl, rfl, rfl⟩, ?_⟩
  · simp [State.resetFor]
  · intro s b r hf
    cases b <;> simp [step, hf, traceControl]

end Sys2Proof.Machine
end

section
/-! PROOFS. What DEC returns as a frame ends in its own checksum, whatever the samples; so what ARB.RXDECODE broadcasts is the
payload of a whole wire frame (O18). -/

namespace Sys2Proof.Machine

/-! ## Big-endian words (R11, R62, R99) -/

theorem hi_beWord (h l : Byte) : hi (beWord h l) = h := by
  ext i hi'
  have h8 : ¬8 + i < 8 := by omega
  simp [hi, beWord, h8, show 8 + i < 16 by omega, hi']

theorem lo_beWord (h l : Byte) : lo (beWord h l) = l := by
  ext i hi'
  simp [lo, beWord, hi', show i < 16 by omega]

theorem datagramOf_ofNat (n : Nat) (p : List Byte) :
    datagramOf (BitVec.ofNat 16 n) p = BitVec.ofNat 8 (n / 256) :: BitVec.ofNat 8 n :: p := by
  have hhi : hi (BitVec.ofNat 16 n) = BitVec.ofNat 8 (n / 256) := by
    apply BitVec.eq_of_toNat_eq
    simp [hi, Nat.shiftRight_eq_div_pow]
    omega
  have hlo : lo (BitVec.ofNat 16 n) = BitVec.ofNat 8 n := by
    apply BitVec.eq_of_toNat_eq
    simp [lo]
  rw [datagramOf, hhi, hlo]

/-! ## A frame that DEC.CHECK passed (R158) -/

/-- At least the two checksum bytes, at most `cap`, and the checksum is that of the bytes before it. -/
structure SoundFrame (cap : Nat) (bs : List Byte) : Prop where
  long : 2 ≤ bs.length
  fits : bs.length ≤ cap
  checksum : crc16 (bs.take (bs.length - 2)) = transmittedCrc bs

theorem transmittedCrc_append (p : List Byte) (a b : Byte) : transmittedCrc (p ++ [a, b]) = beWord a b := by
  simp [transmittedCrc]

/-- It is the wire frame of the bytes before its checksum (R96). -/
theorem SoundFrame.eq_wireFrame {cap : Nat} {bs : List Byte} (h : SoundFrame cap bs) :
    bs = wireFrame (bs.take (bs.length - 2)) := by
  have hlen := h.long
  obtain ⟨a, b, hab⟩ := List.length_eq_two.mp (show (bs.drop (bs.length - 2)).length = 2 by simp; omega)
  have hsplit : bs = bs.take (bs.length - 2) ++ [a, b] := by rw [← hab, List.take_append_drop]
  have hcrc : crc16 (bs.take (bs.length - 2)) = beWord a b := by
    rw [h.checksum, hsplit, transmittedCrc_append]
  rw [wireFrame, hcrc, hi_beWord, lo_beWord]
  exact hsplit

/-- A decode that has passed DEC.CHECK holds a sound frame, and one that has ended returned no other. -/
structure ResultSound (s : State) : Prop where
  checked : s.dec.phase = .done → ∃ bs, loadOut s = .ok bs ∧ SoundFrame s.cfg.maxFrameBytes bs
  returned : s.dec.phase = .idle → ∀ bs n c, s.dec.result = .frame bs n c → SoundFrame s.cfg.maxFrameBytes bs

section
variable {s t : State}

theorem ResultSound.of_phase (hdone : s.dec.phase ≠ .done) (hidle : s.dec.phase ≠ .idle) : ResultSound s :=
  ⟨fun hp => absurd hp hdone, fun hp => absurd hp hidle⟩

theorem ResultSound.raised (s : State) (e : DecError) : ResultSound (s.raiseDec e) :=
  ⟨by rintro ⟨⟩, by rintro - bs n c ⟨⟩⟩

theorem ResultSound.next (s : State) (d : Decoder) : ResultSound (s.setDec { d with phase := nextPairPhase d }) := by
  apply ResultSound.of_phase <;> rcases nextPairPhase_cases d with ⟨hp, -⟩ | hp <;> simp [hp]

theorem onSample_raise_resultSound {m : String} {c : SampleClass} {raw : Byte} {e : DecError}
    (h : onSample m c raw s (fun u => .next (u.raiseDec e)) = .next t) : ResultSound t := by
  obtain ⟨-, -, -, -, -, ht⟩ := onSample_eq_next.mp h
  obtain rfl := Host.Outcome.next.inj ht
  exact .raised _ e

theorem onSample_toggleAppend_resultSound {m : String} {c : SampleClass} {raw : Byte} {n : Nat}
    (h : onSample m c raw s (toggleAppend n) = .next t) : ResultSound t := by
  obtain ⟨-, -, -, -, -, ht⟩ := onSample_eq_next.mp h
  obtain ⟨-, rfl⟩ := toggleAppend_eq_next.mp ht
  apply ResultSound.of_phase <;> rw [State.setDec_dec] <;> dsimp only <;> split_ifs <;> simp

theorem onPair_setDec_resultSound {m : String} {a b : Bool} {u : State} {d : Decoder}
    (h : onPair m a b s (.next (u.setDec { d with phase := nextPairPhase d })) = .next t) : ResultSound t := by
  obtain ⟨-, -, -, -, -, ht⟩ := onPair_eq_next.mp h
  obtain rfl := Host.Outcome.next.inj ht
  exact .next u d

theorem execDecParity_resultSound (h : execDecParity s = .next t) : ResultSound t := by
  obtain ⟨-, ho⟩ := enabledIf_eq_next.mp h
  split_ifs at ho
  · obtain ⟨l, -, ho⟩ := reading_eq_next.mp ho
    obtain rfl := Host.Outcome.next.inj ho
    exact .next s _
  · obtain rfl := Host.Outcome.next.inj ho
    exact .next s _

theorem execDecByte_resultSound (h : execDecByte s = .next t) : ResultSound t := by
  obtain ⟨-, ho⟩ := enabledIf_eq_next.mp h
  obtain ⟨o, -, ho⟩ := reading_eq_next.mp ho
  obtain rfl := Host.Outcome.next.inj ho
  exact .next s _

theorem execDecOvf_resultSound (h : execDecOvf s = .next t) : ResultSound t := by
  obtain ⟨-, ho⟩ := enabledIf_eq_next.mp h
  obtain rfl := Host.Outcome.next.inj ho
  exact .raised s _

theorem execDecAlign_resultSound (h : execDecAlign s = .next t) : ResultSound t := by
  obtain ⟨-, ho⟩ := enabledIf_eq_next.mp h
  split_ifs at ho
  · obtain rfl := Host.Outcome.next.inj ho
    exact .of_phase (by simp) (by simp)
  · obtain rfl := Host.Outcome.next.inj ho
    exact .raised s _

theorem execDecRunt_resultSound (h : execDecRunt s = .next t) : ResultSound t := by
  obtain ⟨-, ho⟩ := enabledIf_eq_next.mp h
  obtain rfl := Host.Outcome.next.inj ho
  exact .raised s _

/-- The one way to `D_DONE` (R158). -/
theorem execDecCheck_resultSound (h : execDecCheck s = .next t) : ResultSound t := by
  obtain ⟨hg, ho⟩ := enabledIf_eq_next.mp h
  simp only [Bool.and_eq_true, decide_eq_true_eq] at hg
  obtain ⟨⟨-, hlong⟩, -⟩ := hg
  obtain ⟨bs, hbs, ho⟩ := reading_eq_next.mp ho
  dsimp only at ho
  split_ifs at ho with hcrc
  · obtain rfl := Host.Outcome.next.inj ho
    obtain ⟨hlen, hread⟩ := loadSpan_eq_ok.mp hbs
    have hcap := (hread (s.dec.outLen - 1) (by omega)).1
    refine ⟨fun _ => ⟨bs, hbs, by omega, ?_, by rw [← CrcUnit.run_reg]; exact hcrc⟩, by rintro ⟨⟩⟩
    simp only [State.setDec_cfg, State.setCrc_cfg]
    omega
  · obtain rfl := Host.Outcome.next.inj ho
    exact .raised _ _

/-- What DEC.CHECK passed is what DEC.DONE returns (R159). -/
theorem execDecDone_resultSound (hs : ResultSound s) (h : execDecDone s = .next t) : ResultSound t := by
  obtain ⟨hg, ho⟩ := enabledIf_eq_next.mp h
  obtain ⟨-, hp⟩ := decodingAt_iff.mp hg
  obtain ⟨bs, hbs, ho⟩ := reading_eq_next.mp ho
  obtain rfl := Host.Outcome.next.inj ho
  obtain ⟨bs', hbs', hsound⟩ := hs.checked hp
  obtain rfl : bs = bs' := Except.ok.inj (hbs.symm.trans hbs')
  refine ⟨by rintro ⟨⟩, ?_⟩
  rintro - _ _ _ ⟨⟩
  exact hsound

theorem decStep_resultSound (hs : ResultSound s) (h : decStep s = .next t) : ResultSound t := by
  unfold decStep at h
  split at h
  · cases h
  · obtain ⟨-, -, -, rfl⟩ := execDecStart_eq_next.mp h
    apply ResultSound.of_phase <;> simp only [State.advance_dec, State.setDec_dec] <;> split_ifs <;> simp
  · exact onSample_raise_resultSound h
  · exact onSample_toggleAppend_resultSound h
  · exact onSample_raise_resultSound h
  · exact onSample_toggleAppend_resultSound h
  · exact onSample_raise_resultSound h
  · exact execDecParity_resultSound h
  · exact onPair_setDec_resultSound h
  · exact onPair_setDec_resultSound h
  · exact onPair_setDec_resultSound h
  · exact onPair_setDec_resultSound h
  · exact execDecByte_resultSound h
  · exact execDecOvf_resultSound h
  · exact execDecAlign_resultSound h
  · exact execDecRunt_resultSound h
  · exact execDecCheck_resultSound h
  · exact execDecDone_resultSound hs h
  · cases h

theorem decLoop_resultSound {n : Nat} (hs : ResultSound s) (h : decLoop n s = .next t) : ResultSound t := by
  induction n generalizing s with
  | zero => exact Host.Outcome.next.inj h ▸ hs
  | succ n ih =>
    unfold decLoop at h
    split_ifs at h
    · exact Host.Outcome.next.inj h ▸ hs
    · obtain ⟨u, hu, h⟩ := Out.andThen_eq_next.mp h
      exact ih (decStep_resultSound hs hu) h

/-- Whatever the samples, and whatever an earlier decode left: a frame that DEC returns is sound. -/
theorem decRun_resultSound (h : decRun s = .next t) : ResultSound t := by
  obtain ⟨u, hu, h⟩ := Out.andThen_eq_next.mp h
  obtain ⟨-, -, -, rfl⟩ := execDecStart_eq_next.mp hu
  refine decLoop_resultSound (.of_phase ?_ ?_) h <;> simp only [State.advance_dec, State.setDec_dec] <;>
    split_ifs <;> simp

theorem relayIn_eq_ok {f : List Byte} {g : Datagram} :
    relayIn f = .ok g ↔ (f.length - 2) % 2 = 0 ∧
      g = datagramOf (BitVec.ofNat 16 ((f.length - 2) / 2)) (f.take (f.length - 2)) := by
  simp only [relayIn]
  split_ifs with hodd
  · simp [hodd]
  · simp [Nat.mod_two_ne_one.mp hodd, eq_comm]

/-- ARB.RXDECODE broadcasts nothing, or the datagram of the frame DEC returned (R209). -/
theorem deliver_netOut (s : State) : (deliver s).netOut = s.netOut ∨
    ∃ f n c g, s.dec.result = .frame f n c ∧ relayIn f = .ok g ∧ (deliver s).netOut = s.netOut ++ [g] := by
  unfold deliver
  cases hr : s.dec.result with
  | error e => exact .inl rfl
  | frame f n c =>
    dsimp only
    cases hg : relayIn f with
    | error e => exact .inl rfl
    | ok g =>
      dsimp only
      split_ifs
      · exact .inl rfl
      · exact .inr ⟨f, n, c, g, rfl, hg, rfl⟩

end

/-- Settles O18, by the invariant of a decode that `D_DONE` is reached through DEC.CHECK only. -/
theorem onlySoundFramesAreRelayed : Obligations.OnlySoundFramesAreRelayed := by
  intro s t xs hs h
  obtain ⟨u, honce, hu⟩ := Out.andThen_eq_next.mp ((execArbRxdecode_eq hs.hphase hs.idle hs.free).symm.trans h)
  obtain rfl := Host.Outcome.next.inj hu
  rw [decodeOnce, if_neg (by simp [hs.fresh])] at honce
  obtain ⟨-, -, -, hframe, hidle⟩ := decRun_ends honce
  have hout : u.netOut = s.netOut := by rw [hframe.rest]; rfl
  have hcfg : u.cfg = s.cfg := by rw [hframe.rest]; rfl
  have hdec : u.decodeHandled.dec = u.dec := by
    obtain ⟨l, g, -, hdeliv⟩ := deliver_eq u
    rw [State.decodeHandled, hdeliv]
    rfl
  obtain hnone | ⟨f, n, c, g, hres, hrelay, hsent⟩ := deliver_netOut u
  · exact .inl (hnone.trans hout)
  · have hsound := (decRun_resultSound honce).returned hidle f n c hres
    obtain ⟨heven, rfl⟩ := relayIn_eq_ok.mp hrelay
    have hlong := hsound.long
    have hfits := hcfg ▸ hsound.fits
    have hlen : (f.take (f.length - 2)).length = f.length - 2 := by rw [List.length_take]; omega
    refine .inr ⟨f.take (f.length - 2), n, c, ?_, by rw [hlen]; exact heven, by omega, ?_⟩
    · rw [hdec, hres, ← hsound.eq_wireFrame]
    · rw [hlen, ← datagramOf_ofNat, ← hout]
      exact hsent

end Sys2Proof.Machine
end

section
/-! PROOFS. All an operation can do to the outputs, the constants, the queue and the Transmit buffer, and the phases in which
it is taken, in one pass over the operations; then what follows for the guards, the outputs and the frame in flight (O48,
O51, O52). -/

namespace Sys2Proof.Machine

/-- Every next state of the outcome satisfies `P`. -/
def Out.Ensures (P : State → Prop) (o : Out) : Prop := ∀ t, o = .next t → P t

namespace Out.Ensures
variable {P Q : State → Prop} {s t : State} {o : Out}

theorem next (h : P t) : Ensures P (.next t) := by rintro _ ⟨⟩; exact h

theorem fault (r : Fault) : Ensures P (.fault r) := by rintro _ ⟨⟩

theorem refused (r : Refusal) : Ensures P (.refused r) := by rintro _ ⟨⟩

theorem ite_enabled {m : String} {c : Bool} (h : c = true → Ensures P o) : Ensures P (enabledIf m c o) :=
  fun t ht => h (enabledIf_eq_next.mp ht).1 t (enabledIf_eq_next.mp ht).2

theorem at_phase {m : String} {p : HPhase} (h : s.hphase = p → Ensures P o) : Ensures P (atPhase m p s o) :=
  ite_enabled fun hp => h (beq_iff_eq.mp hp)

theorem read {α : Type} {x : Except Fault α} {f : α → Out} (h : ∀ v, Ensures P (f v)) : Ensures P (reading x f) :=
  fun t ht => by
    obtain ⟨v, -, ht⟩ := reading_eq_next.mp ht
    exact h v t ht

theorem owns_rx (h : Ensures P o) : Ensures P (hostOwnsRx s o) := fun t ht => h t (hostOwnsRx_eq_next.mp ht).2

theorem owns_tx (h : s.ifb.wOwner = .host → Ensures P o) : Ensures P (hostOwnsTx s o) :=
  fun t ht => h (hostOwnsTx_eq_next.mp ht).1 t (hostOwnsTx_eq_next.mp ht).2

theorem and_then {f : State → Out} (h : ∀ u, o = .next u → Ensures P (f u)) : Ensures P (Out.andThen o f) :=
  fun t ht => by
    obtain ⟨u, hu, ht⟩ := Out.andThen_eq_next.mp ht
    exact h u hu t ht

end Out.Ensures

/-! ## The phases of an operation -/

/-- The three phases and the part taken before are those the operation needs_eq (R26, R90, log entry 26). -/
structure AtPhases (i : Instr) (s : State) : Prop where
  host : ∀ p, hostPhase i = some p → s.hphase = p
  decoder : ∀ p, decoderPhase i = some p → s.dec.phase = p
  crc : ∀ p, crcPhase i = some p → s.crc.phase = p
  part : ∀ p, partAfter i = some p → s.progress = p

theorem needs_eq {α : Type} {a b : α} (h : b = a) : ∀ p, some a = some p → b = p := by rintro _ ⟨⟩; exact h

theorem needs_none {α : Type} {b : α} : ∀ p, none = some p → b = p := by rintro _ ⟨⟩

/-! ## The frame of a step -/

/-- The parameters, the inputs and the fields nobody writes (R28, R100). -/
def State.constants (s : State) : Config × Bool × List Byte × Word32 × Word32 × Word32 :=
  (s.cfg, s.bootOk, s.feed, s.ifb.rMaxLength, s.ifb.rBufAddr, s.ifb.wBufAddr)

/-- What the Device reads of the Transmit buffer, and whose it is (R29). -/
def State.transmit (s : State) : Owner × Word32 × Memory Byte := (s.ifb.wOwner, s.ifb.wLength, s.wbuf)

/-- What every step of every agent leaves as it was, or only adds to. -/
structure StepFrame (s t : State) : Prop where
  log : s.log <+: t.log
  netOut : ∃ gs, gs.length ≤ 1 ∧ t.netOut = s.netOut ++ gs
  constants : t.constants = s.constants
  /-- Only ARB.TXTEST takes a datagram, after a wake by the socket (R211). -/
  netIn : s.netIn <+: t.netIn ∨ (s.hphase = .txTest ∧ s.wokeSock = true)
  /-- Only the Device ends a transmit (R200, R216). -/
  transmit : s.ifb.wOwner = .device → t.transmit = s.transmit ∨ t.ifb.wOwner = .host

/-- An operation with its place and its frame. -/
def Taken (i : Instr) (s t : State) : Prop := AtPhases i s ∧ StepFrame s t

open Out (Ensures)

section
variable {s t : State}

/-- An operation that sends, takes and hands off nothing. -/
theorem StepFrame.of_log (hlog : s.log <+: t.log)
    (ht : (t.netOut, t.constants, t.netIn, t.transmit) = (s.netOut, s.constants, s.netIn, s.transmit)) :
    StepFrame s t := by
  obtain ⟨hout, hconst, hin, htx⟩ : _ ∧ _ ∧ _ ∧ _ := by simpa only [Prod.mk.injEq] using ht
  exact ⟨hlog, ⟨[], by simp, by simp [hout]⟩, hconst, .inl (hin ▸ List.prefix_rfl), fun _ => .inl htx⟩

/-- An operation on the Transmit buffer by Host, who owns it. -/
theorem StepFrame.of_host (how : s.ifb.wOwner = .host) (hlog : s.log <+: t.log)
    (ht : (t.netOut, t.constants, t.netIn) = (s.netOut, s.constants, s.netIn)) : StepFrame s t := by
  obtain ⟨hout, hconst, hin⟩ : _ ∧ _ ∧ _ := by simpa only [Prod.mk.injEq] using ht
  exact ⟨hlog, ⟨[], by simp, by simp [hout]⟩, hconst, .inl (hin ▸ List.prefix_rfl),
    fun hd => absurd (how.symm.trans hd) (by decide)⟩

theorem StepFrame.same (ht : (t.log, t.netOut, t.constants, t.netIn, t.transmit) =
    (s.log, s.netOut, s.constants, s.netIn, s.transmit)) : StepFrame s t := by
  obtain ⟨hlog, hrest⟩ := Prod.mk.inj ht
  exact .of_log (hlog ▸ List.prefix_rfl) hrest

theorem DecoderFrame.stepFrame (h : DecoderFrame s t) : StepFrame s t := .of_log h.log (by rw [h.rest]; rfl)

/-! ## CRC family, encoder, relay and environment -/

theorem onCrc_stepFrame {m : String} {p : CPhase} {c : CrcUnit} (h : onCrc m p s c = .next t) : StepFrame s t := by
  obtain ⟨-, -, rfl⟩ := onCrc_eq_next.mp h
  exact .same rfl

theorem onCrc_phase {m : String} {p : CPhase} {c : CrcUnit} (h : onCrc m p s c = .next t) : s.crc.phase = p :=
  (onCrc_eq_next.mp h).2.1

/-- ENC after its checks writes the buffer only where Host owns it (R180, R184). -/
theorem encCommit_frame {p : List Byte} (h : encCommit p s = .next t) :
    s.ifb.wOwner = .host ∧ t = { s with
      crc := t.crc, enc := t.enc, wbuf := t.wbuf, ifb := { s.ifb with wLength := t.ifb.wLength } } := by
  obtain ⟨how, -, rfl⟩ := encStore_eq_next.mp h
  exact ⟨how, rfl⟩

theorem execEncCheck_taken (q : Nat) : Ensures (Taken (.encCheck q) s) (execEncCheck q s) := .ite_enabled fun hg => by
  simp only [Bool.and_eq_true, fillingAt_iff] at hg
  obtain ⟨⟨hp, hprog⟩, -⟩ := hg
  have hat : AtPhases (.encCheck q) s := ⟨needs_eq hp, needs_none, needs_none, needs_eq hprog⟩
  cases encRefusal s.cfg q with
  | some e => exact .next ⟨hat, .same rfl⟩
  | none => exact .next ⟨hat, .same rfl⟩

theorem execEncCrc_taken (p : List Byte) : Ensures (Taken (.encCrc p) s) (execEncCrc p s) := .ite_enabled fun hg => by
  simp only [Bool.and_eq_true, fillingAt_iff, crcFree_iff] at hg
  obtain ⟨⟨⟨hp, hprog⟩, -⟩, hfree⟩ := hg
  exact .next ⟨⟨needs_eq hp, needs_none, needs_eq hfree, needs_eq hprog⟩, .same rfl⟩

theorem execEncFill_taken (p : List Byte) : Ensures (Taken (.encFill p) s) (execEncFill p s) := .ite_enabled fun hg => by
  simp only [Bool.and_eq_true, fillingAt_iff] at hg
  obtain ⟨⟨hp, hprog⟩, -⟩ := hg
  refine .and_then fun u hu => .next ⟨⟨needs_eq hp, needs_none, needs_none, needs_eq hprog⟩, ?_⟩
  obtain ⟨how, -, rfl⟩ := encStore_eq_next.mp hu
  exact .of_host how List.prefix_rfl rfl

theorem execEnc_taken (p : List Byte) : Ensures (Taken (.enc p) s) (execEnc p s) := .ite_enabled fun hg => by
  simp only [Bool.and_eq_true, fillingAt_iff, crcFree_iff] at hg
  obtain ⟨⟨⟨hp, hprog⟩, -⟩, hfree⟩ := hg
  have hat : AtPhases (.enc p) s := ⟨needs_eq hp, needs_none, needs_eq hfree, needs_eq hprog⟩
  cases encRefusal s.cfg p.length with
  | some e => exact .next ⟨hat, .same rfl⟩
  | none =>
    refine .and_then fun u hu => .next ⟨hat, ?_⟩
    obtain ⟨how, hu⟩ := encCommit_frame hu
    rw [hu]
    exact .of_host how List.prefix_rfl rfl

theorem execRlyIn_taken (f : List Byte) : Ensures (Taken (.rlyIn f) s) (execRlyIn f s) := .ite_enabled fun hg => by
  simp only [decodeReturned, Bool.and_eq_true, beq_iff_eq] at hg
  obtain ⟨⟨⟨hp, hd⟩, hprog⟩, -⟩ := hg
  have hat : AtPhases (.rlyIn f) s := ⟨needs_eq hp, needs_eq hd, needs_none, needs_eq hprog⟩
  cases relayIn f with
  | ok g => exact .next ⟨hat, ⟨List.prefix_rfl, ⟨[g], by simp, rfl⟩, rfl, .inl List.prefix_rfl, fun _ => .inl rfl⟩⟩
  | error e => exact .next ⟨hat, .same rfl⟩

theorem execRlyOut_taken (g : Datagram) : Ensures (Taken (.rlyOut g) s) (execRlyOut g s) := .ite_enabled fun hg => by
  simp only [Bool.and_eq_true, beq_iff_eq] at hg
  obtain ⟨⟨hp, hprog⟩, -⟩ := hg
  have hat : AtPhases (.rlyOut g) s := ⟨needs_eq hp, needs_none, needs_none, needs_eq hprog⟩
  cases relayOut g with
  | ok r =>
    dsimp only
    rw [State.logIf_eq]
    exact .next ⟨hat, .of_log (List.prefix_append _ _) rfl⟩
  | error e => exact .next ⟨hat, .same rfl⟩

theorem execDevRxdone_taken (d : List Byte) (st : Word16) (b : Bool) :
    Ensures (Taken (.devRxdone d st b) s) (execDevRxdone d st b s) := .ite_enabled fun _ => by
  split_ifs
  · exact .refused _
  · exact .read fun m => .next ⟨⟨needs_none, needs_none, needs_none, needs_none⟩, .same rfl⟩

theorem execDevTxdone_taken (st : Word16) : Ensures (Taken (.devTxdone st) s) (execDevTxdone st s) :=
  .ite_enabled fun _ => .next ⟨⟨needs_none, needs_none, needs_none, needs_none⟩,
    ⟨List.prefix_rfl, ⟨[], by simp, by simp⟩, rfl, .inl List.prefix_rfl, fun _ => .inr rfl⟩⟩

theorem execDevSignal_taken : Ensures (Taken .devSignal s) (execDevSignal s) :=
  .ite_enabled fun _ => .next ⟨⟨needs_none, needs_none, needs_none, needs_none⟩, .same rfl⟩

theorem execNetArrive_taken (g : Datagram) (lost : Bool) :
    Ensures (Taken (.netArrive g lost) s) (execNetArrive g lost s) := by
  have hqueue : s.netIn <+: if lost then s.netIn else s.netIn ++ [g] := by cases lost <;> simp
  exact .next ⟨⟨needs_none, needs_none, needs_none, needs_none⟩,
    ⟨List.prefix_rfl, ⟨[], by simp, by simp⟩, rfl, .inl hqueue, fun _ => .inl rfl⟩⟩

/-! ## The arbiter -/

theorem execArbBoot_taken : Ensures (Taken .arbBoot s) (execArbBoot s) := .at_phase fun hp => .ite_enabled fun hc => by
  have hat : AtPhases .arbBoot s := ⟨needs_eq hp, needs_none, needs_eq (crcFree_iff.mp hc), needs_none⟩
  split_ifs
  · exact .next ⟨hat, .same rfl⟩
  · exact .next ⟨hat, .of_log (List.prefix_append _ _) rfl⟩

theorem execArbArm_taken : Ensures (Taken .arbArm s) (execArbArm s) := .at_phase fun hp =>
  .next ⟨⟨needs_eq hp, needs_none, needs_none, needs_none⟩, .same rfl⟩

theorem execArbWait_taken : Ensures (Taken .arbWait s) (execArbWait s) := .at_phase fun hp => .ite_enabled fun _ =>
  .next ⟨⟨needs_eq hp, needs_none, needs_none, needs_none⟩, .same rfl⟩

theorem execArbTick_taken : Ensures (Taken .arbTick s) (execArbTick s) := .at_phase fun hp => .ite_enabled fun _ =>
  .next ⟨⟨needs_eq hp, needs_none, needs_none, needs_none⟩, .of_log (List.prefix_append _ _) rfl⟩

theorem execArbAck_taken : Ensures (Taken .arbAck s) (execArbAck s) := .at_phase fun hp =>
  .next ⟨⟨needs_eq hp, needs_none, needs_none, needs_none⟩, .same rfl⟩

theorem execArbRxtest_taken : Ensures (Taken .arbRxtest s) (execArbRxtest s) := .at_phase fun hp => by
  have hat : AtPhases .arbRxtest s := ⟨needs_eq hp, needs_none, needs_none, needs_none⟩
  split_ifs <;> exact .next ⟨hat, .same rfl⟩

theorem execArbRxstatus_taken : Ensures (Taken .arbRxstatus s) (execArbRxstatus s) := .at_phase fun hp => .owns_rx <| by
  have hat : AtPhases .arbRxstatus s := ⟨needs_eq hp, needs_none, needs_none, needs_none⟩
  unfold rejectStatus
  split_ifs
  · exact .next ⟨hat, .of_log (List.prefix_append _ _) rfl⟩
  · exact .next ⟨hat, .same rfl⟩
  · exact .read fun p => .next ⟨hat, .of_log ((List.prefix_append _ _).trans (List.prefix_append _ _)) rfl⟩
  · exact .next ⟨hat, .of_log (List.prefix_append _ _) rfl⟩

theorem execArbRxtrunc_taken : Ensures (Taken .arbRxtrunc s) (execArbRxtrunc s) := .at_phase fun hp => .owns_rx <| by
  obtain ⟨l, b, hclear⟩ := clearTruncated_eq s
  rw [hclear]
  exact .next ⟨⟨needs_eq hp, needs_none, needs_none, needs_none⟩, .of_log (List.prefix_append _ _) rfl⟩

theorem execArbRxcopy_taken : Ensures (Taken .arbRxcopy s) (execArbRxcopy s) := .at_phase fun hp => .owns_rx <|
  .read fun _ => .read fun _ => .next ⟨⟨needs_eq hp, needs_none, needs_none, needs_none⟩, .same rfl⟩

theorem execArbRxrelease_taken : Ensures (Taken .arbRxrelease s) (execArbRxrelease s) := .at_phase fun hp => .owns_rx <|
  .next ⟨⟨needs_eq hp, needs_none, needs_none, needs_none⟩, .same rfl⟩

/-- A decode taken now or before: nothing but the decoder, the CRC unit, the log and the mark. -/
theorem decodeOnce_frame (h : decodeOnce s = .next t) : ∃ a, DecoderFrame (s.advance a) t := by
  unfold decodeOnce at h
  split_ifs at h
  · obtain rfl := Host.Outcome.next.inj h
    exact ⟨s.progress, .refl s⟩
  · obtain ⟨-, -, -, hframe, -⟩ := decRun_ends h
    exact ⟨_, hframe⟩

theorem execArbRxdecode_taken : Ensures (Taken .arbRxdecode s) (execArbRxdecode s) :=
  .at_phase fun hp => .ite_enabled fun hg => by
    simp only [Bool.and_eq_true, beq_iff_eq, crcFree_iff] at hg
    obtain ⟨hd, hc⟩ := hg
    refine .and_then fun u hu => .next ⟨⟨needs_eq hp, needs_eq hd, needs_eq hc, needs_none⟩, ?_⟩
    obtain ⟨a, hframe⟩ := decodeOnce_frame hu
    obtain ⟨l, g, hg, hdeliv⟩ := deliver_eq u
    have hdecode : StepFrame (s.advance a) u := hframe.stepFrame
    have hout : u.netOut = s.netOut := by rw [hframe.rest]; rfl
    rw [hdeliv]
    exact { hdecode with
      log := hdecode.log.trans (List.prefix_append _ _), netOut := ⟨g, hg, congrArg (· ++ g) hout⟩ }

theorem execArbTxdone_taken : Ensures (Taken .arbTxdone s) (execArbTxdone s) := .at_phase fun hp => by
  obtain ⟨l, hexam⟩ := examineTransmit_eq s
  rw [hexam]
  exact .next ⟨⟨needs_eq hp, needs_none, needs_none, needs_none⟩, .of_log (List.prefix_append _ _) rfl⟩

theorem execArbTxtest_taken : Ensures (Taken .arbTxtest s) (execArbTxtest s) := .at_phase fun hp => by
  have hat : AtPhases .arbTxtest s := ⟨needs_eq hp, needs_none, needs_none, needs_none⟩
  split_ifs with hw
  · split
    · exact .next ⟨hat, ⟨List.prefix_rfl, ⟨[], by simp, by simp⟩, rfl, .inr ⟨hp, hw⟩, fun _ => .inl rfl⟩⟩
    · exact .fault _
  · exact .next ⟨hat, .same rfl⟩

theorem execArbTxowner_taken : Ensures (Taken .arbTxowner s) (execArbTxowner s) := .at_phase fun hp => by
  have hat : AtPhases .arbTxowner s := ⟨needs_eq hp, needs_none, needs_none, needs_none⟩
  split_ifs
  · exact .next ⟨hat, .same rfl⟩
  · exact .next ⟨hat, .of_log (List.prefix_append _ _) rfl⟩

theorem fillPayload_stepFrame (p : List Byte) : Ensures (StepFrame s) (fillPayload p s) := by
  unfold fillPayload
  cases encRefusal s.cfg p.length with
  | some e => exact .next (.of_log (List.prefix_append _ _) rfl)
  | none =>
    refine .and_then fun u hu => .next ?_
    obtain ⟨how, hu⟩ := encCommit_frame hu
    rw [hu]
    exact .of_host how List.prefix_rfl rfl

theorem execArbTxfill_taken : Ensures (Taken .arbTxfill s) (execArbTxfill s) := .at_phase fun hp => .ite_enabled fun hc => by
  have hat : AtPhases .arbTxfill s := ⟨needs_eq hp, needs_none, needs_eq (crcFree_iff.mp hc), needs_none⟩
  cases relayOut s.txDgram with
  | error e => exact .next ⟨hat, .of_log (List.prefix_append _ _) rfl⟩
  | ok r =>
    dsimp only
    rw [State.logIf_eq]
    intro t ht
    have hfill := fillPayload_stepFrame _ t ht
    exact ⟨hat, { hfill with log := (List.prefix_append _ _).trans hfill.log }⟩

theorem execArbTxrelease_taken : Ensures (Taken .arbTxrelease s) (execArbTxrelease s) :=
  .at_phase fun hp => .owns_tx fun how =>
    .next ⟨⟨needs_eq hp, needs_none, needs_none, needs_none⟩, .of_host how List.prefix_rfl rfl⟩

/-! ## Every operation -/

theorem execDec_taken : Ensures (Taken .dec s) (execDec s) := .ite_enabled fun hg t hrun => by
  obtain ⟨-, hfree⟩ := Bool.and_eq_true_iff.mp hg
  obtain ⟨hp, hd, hprog, hframe, -⟩ := decRun_ends hrun
  have hdecode : StepFrame (s.advance .decoding) t := hframe.stepFrame
  exact ⟨⟨needs_eq hp, needs_eq hd, needs_eq (crcFree_iff.mp hfree), needs_eq hprog⟩, { hdecode with }⟩

/-- DEC.SHORT, DEC.AMBIG and DEC.LONG. -/
theorem onSample_raise_taken {m : String} {c : SampleClass} {raw : Byte} {e : DecError}
    (h : onSample m c raw s (fun u => .next (u.raiseDec e)) = .next t) :
    s.hphase = .rxDecode ∧ s.dec.phase = .classify ∧ StepFrame s t := by
  obtain ⟨hp, hd, -⟩ := onSample_eq_next.mp h
  exact ⟨hp, hd, (onSample_raise_step h).frame.stepFrame⟩

/-- DEC.SINGLE and DEC.DOUBLE. -/
theorem onSample_toggleAppend_taken {m : String} {c : SampleClass} {raw : Byte} {n : Nat} (hn : n ≤ 2)
    (h : onSample m c raw s (toggleAppend n) = .next t) :
    s.hphase = .rxDecode ∧ s.dec.phase = .classify ∧ StepFrame s t := by
  obtain ⟨hp, hd, -⟩ := onSample_eq_next.mp h
  exact ⟨hp, hd, (onSample_toggleAppend_step hn h).frame.stepFrame⟩

theorem exec_taken {i : Instr} (h : exec i s = .next t) : Taken i s t := by
  cases i with
  | crcInit => exact ⟨⟨needs_none, needs_none, needs_eq (onCrc_phase h), needs_none⟩, onCrc_stepFrame h⟩
  | crcLoad b => exact ⟨⟨needs_none, needs_none, needs_eq (onCrc_phase h), needs_none⟩, onCrc_stepFrame h⟩
  | crcBit =>
    obtain ⟨-, h⟩ := enabledIf_eq_next.mp h
    exact ⟨⟨needs_none, needs_none, needs_eq (onCrc_phase h), needs_none⟩, onCrc_stepFrame h⟩
  | crcByte b => exact ⟨⟨needs_none, needs_none, needs_eq (onCrc_phase h), needs_none⟩, onCrc_stepFrame h⟩
  | crc16 bs => exact ⟨⟨needs_none, needs_none, needs_eq (onCrc_phase h), needs_none⟩, onCrc_stepFrame h⟩
  | decStart =>
    obtain ⟨hp, hd, hprog, rfl⟩ := execDecStart_eq_next.mp h
    exact ⟨⟨needs_eq hp, needs_eq hd, needs_none, needs_eq hprog⟩, .same rfl⟩
  | decShort raw =>
    obtain ⟨hp, hd, hframe⟩ := onSample_raise_taken h
    exact ⟨⟨needs_eq hp, needs_eq hd, needs_none, needs_none⟩, hframe⟩
  | decSingle raw =>
    obtain ⟨hp, hd, hframe⟩ := onSample_toggleAppend_taken (by decide) h
    exact ⟨⟨needs_eq hp, needs_eq hd, needs_none, needs_none⟩, hframe⟩
  | decAmbig raw =>
    obtain ⟨hp, hd, hframe⟩ := onSample_raise_taken h
    exact ⟨⟨needs_eq hp, needs_eq hd, needs_none, needs_none⟩, hframe⟩
  | decDouble raw =>
    obtain ⟨hp, hd, hframe⟩ := onSample_toggleAppend_taken (by decide) h
    exact ⟨⟨needs_eq hp, needs_eq hd, needs_none, needs_none⟩, hframe⟩
  | decLong raw =>
    obtain ⟨hp, hd, hframe⟩ := onSample_raise_taken h
    exact ⟨⟨needs_eq hp, needs_eq hd, needs_none, needs_none⟩, hframe⟩
  | decParity =>
    obtain ⟨hp, hd⟩ := decodingAt_iff.mp (enabledIf_eq_next.mp h).1
    exact ⟨⟨needs_eq hp, needs_eq hd, needs_none, needs_none⟩, (execDecParity_step h).frame.stepFrame⟩
  | decPair1 =>
    obtain ⟨hp, hd, -⟩ := onPair_eq_next.mp h
    exact ⟨⟨needs_eq hp, needs_eq hd, needs_none, needs_none⟩, (onPair_acceptBit_step h).frame.stepFrame⟩
  | decPair0 =>
    obtain ⟨hp, hd, -⟩ := onPair_eq_next.mp h
    exact ⟨⟨needs_eq hp, needs_eq hd, needs_none, needs_none⟩, (onPair_acceptBit_step h).frame.stepFrame⟩
  | decPairf00 =>
    obtain ⟨hp, hd, -⟩ := onPair_eq_next.mp h
    exact ⟨⟨needs_eq hp, needs_eq hd, needs_none, needs_none⟩, (onPair_pairFault_step h).frame.stepFrame⟩
  | decPairf11 =>
    obtain ⟨hp, hd, -⟩ := onPair_eq_next.mp h
    exact ⟨⟨needs_eq hp, needs_eq hd, needs_none, needs_none⟩, (onPair_pairFault_step h).frame.stepFrame⟩
  | decByte =>
    have hg := (enabledIf_eq_next.mp h).1
    simp only [Bool.and_eq_true, decodingAt_iff] at hg
    obtain ⟨⟨⟨hp, hd⟩, -⟩, -⟩ := hg
    exact ⟨⟨needs_eq hp, needs_eq hd, needs_none, needs_none⟩, (execDecByte_step h).frame.stepFrame⟩
  | decOvf =>
    have hg := (enabledIf_eq_next.mp h).1
    simp only [Bool.and_eq_true, decodingAt_iff] at hg
    obtain ⟨⟨⟨hp, hd⟩, -⟩, -⟩ := hg
    exact ⟨⟨needs_eq hp, needs_eq hd, needs_none, needs_none⟩, (execDecOvf_step h).frame.stepFrame⟩
  | decAlign =>
    obtain ⟨hp, hd⟩ := decodingAt_iff.mp (enabledIf_eq_next.mp h).1
    exact ⟨⟨needs_eq hp, needs_eq hd, needs_none, needs_none⟩, (execDecAlign_step h).frame.stepFrame⟩
  | decRunt =>
    have hg := (enabledIf_eq_next.mp h).1
    simp only [Bool.and_eq_true, decodingAt_iff] at hg
    obtain ⟨⟨hp, hd⟩, -⟩ := hg
    exact ⟨⟨needs_eq hp, needs_eq hd, needs_none, needs_none⟩, (execDecRunt_step h).frame.stepFrame⟩
  | decCheck =>
    have hg := (enabledIf_eq_next.mp h).1
    simp only [Bool.and_eq_true, decodingAt_iff, crcFree_iff] at hg
    obtain ⟨⟨⟨hp, hd⟩, -⟩, hc⟩ := hg
    exact ⟨⟨needs_eq hp, needs_eq hd, needs_eq hc, needs_none⟩, (execDecCheck_step h).frame.stepFrame⟩
  | decDone =>
    obtain ⟨hp, hd⟩ := decodingAt_iff.mp (enabledIf_eq_next.mp h).1
    exact ⟨⟨needs_eq hp, needs_eq hd, needs_none, needs_none⟩, (execDecDone_step h).frame.stepFrame⟩
  | dec => exact execDec_taken t h
  | encCheck q => exact execEncCheck_taken q t h
  | encCrc p => exact execEncCrc_taken p t h
  | encFill p => exact execEncFill_taken p t h
  | enc p => exact execEnc_taken p t h
  | serLevels w => cases h; exact ⟨⟨needs_none, needs_none, needs_none, needs_none⟩, .same rfl⟩
  | serDur l => cases h; exact ⟨⟨needs_none, needs_none, needs_none, needs_none⟩, .same rfl⟩
  | arbBoot => exact execArbBoot_taken t h
  | arbArm => exact execArbArm_taken t h
  | arbWait => exact execArbWait_taken t h
  | arbTick => exact execArbTick_taken t h
  | arbAck => exact execArbAck_taken t h
  | arbRxtest => exact execArbRxtest_taken t h
  | arbRxstatus => exact execArbRxstatus_taken t h
  | arbRxtrunc => exact execArbRxtrunc_taken t h
  | arbRxcopy => exact execArbRxcopy_taken t h
  | arbRxrelease => exact execArbRxrelease_taken t h
  | arbRxdecode => exact execArbRxdecode_taken t h
  | arbTxdone => exact execArbTxdone_taken t h
  | arbTxtest => exact execArbTxtest_taken t h
  | arbTxowner => exact execArbTxowner_taken t h
  | arbTxfill => exact execArbTxfill_taken t h
  | arbTxrelease => exact execArbTxrelease_taken t h
  | devRxdone d st b => exact execDevRxdone_taken d st b t h
  | devTxdone st => exact execDevTxdone_taken st t h
  | devSignal => exact execDevSignal_taken t h
  | netArrive g lost => exact execNetArrive_taken g lost t h
  | rlyIn f => exact execRlyIn_taken f t h
  | rlyOut g => exact execRlyOut_taken g t h

/-! ## The guards beside the phases -/

theorem exec_crcTurn {i : Instr} (hi : inCrcFamily i = true) (h : exec i s = .next t) : CrcTurn s := by
  cases i with
  | crcInit => exact (onCrc_eq_next.mp h).1
  | crcLoad b => exact (onCrc_eq_next.mp h).1
  | crcBit => exact (onCrc_eq_next.mp (enabledIf_eq_next.mp h).2).1
  | crcByte b => exact (onCrc_eq_next.mp h).1
  | crc16 bs => exact (onCrc_eq_next.mp h).1
  | _ => cases hi

theorem exec_owns_receive {i : Instr} (hi : touchesReceive i = true) (h : exec i s = .next t) : s.ifb.rOwner = .host := by
  cases i with
  | arbRxstatus => exact (hostOwnsRx_eq_next.mp (atPhase_eq_next.mp h).2).1
  | arbRxtrunc => exact (hostOwnsRx_eq_next.mp (atPhase_eq_next.mp h).2).1
  | arbRxcopy => exact (hostOwnsRx_eq_next.mp (atPhase_eq_next.mp h).2).1
  | arbRxrelease => exact (hostOwnsRx_eq_next.mp (atPhase_eq_next.mp h).2).1
  | _ => cases hi

theorem exec_owns_transmit {i : Instr} (hi : touchesTransmit i = true) (h : exec i s = .next t) :
    s.ifb.wOwner = .host := by
  cases i with
  | encFill p =>
    obtain ⟨u, hu, -⟩ := Out.andThen_eq_next.mp (enabledIf_eq_next.mp h).2
    exact (encStore_eq_next.mp hu).1
  | arbTxrelease => exact (hostOwnsTx_eq_next.mp (atPhase_eq_next.mp h).2).1
  | _ => cases hi

theorem exec_fills_receive {i : Instr} (hi : fillsReceive i = true) (h : exec i s = .next t) :
    s.ifb.rOwner = .device := by
  cases i with
  | devRxdone d st b => exact beq_iff_eq.mp (enabledIf_eq_next.mp h).1
  | _ => cases hi

theorem exec_returns_transmit {i : Instr} (hi : returnsTransmit i = true) (h : exec i s = .next t) :
    s.ifb.wOwner = .device := by
  cases i with
  | devTxdone st => exact beq_iff_eq.mp (enabledIf_eq_next.mp h).1
  | _ => cases hi

/-- An operation of Host without a phase of the loop is of the CRC family. -/
theorem inCrcFamily_of_no_phase {i : Instr} (hi : agentOf i = .host) (hp : hostPhase i = none) :
    inCrcFamily i = true := by
  cases i <;> cases hi <;> cases hp <;> rfl

theorem hostPhase_ne_halt (i : Instr) : hostPhase i ≠ some .halt := by
  intro hp
  cases i <;> cases hp

theorem hostPhase_eq_wait {i : Instr} (hp : hostPhase i = some .wait) : i = .arbWait ∨ i = .arbTick := by
  cases i <;> cases hp
  · exact .inl rfl
  · exact .inr rfl

/-- Where the CRC family has no turn, an operation of Host is the phase's own. -/
theorem exec_host_phase {i : Instr} (hi : agentOf i = .host) (hturn : ¬CrcTurn s) (h : exec i s = .next t) :
    hostPhase i = some s.hphase := by
  cases hp : hostPhase i with
  | none => exact absurd (exec_crcTurn (inCrcFamily_of_no_phase hi hp) h) hturn
  | some p => rw [(exec_taken h).1.host p hp]

end

/-- Settles O48: the phases by the pass over the operations, the guards beside them operation by operation. -/
theorem operationsAreGatedByPhase : Obligations.OperationsAreGatedByPhase := by
  intro i s t h
  obtain ⟨⟨hhost, hdec, hcrc, hpart⟩, -⟩ := exec_taken h
  refine ⟨hhost, hdec, hcrc, hpart, fun hi => exec_crcTurn hi h, ?_, ?_, ?_, fun hi => exec_owns_receive hi h,
    fun hi => exec_owns_transmit hi h, fun hi => exec_fills_receive hi h, fun hi => exec_returns_transmit hi h, ?_, ?_, ?_⟩
  · rintro rfl
    exact of_decide_eq_true (enabledIf_eq_next.mp h).1
  · rintro rfl
    exact waitReady_iff.mp (enabledIf_eq_next.mp (atPhase_eq_next.mp h).2).1
  · rintro rfl hready
    have hnot := (enabledIf_eq_next.mp (atPhase_eq_next.mp h).2).1
    rw [waitReady_iff.mpr hready] at hnot
    cases hnot
  · rintro rfl
    exact (enabledIf_eq_next.mp h).1
  · intro hp hi
    have hphase := exec_host_phase hi (not_crcTurn_of_hphase (by simp [hp]) (by simp [hp]) (by simp [hp])) h
    exact hostPhase_ne_halt i (hp ▸ hphase)
  · intro hp hi
    have hphase := exec_host_phase hi (not_crcTurn_of_hphase (by simp [hp]) (by simp [hp]) (by simp [hp])) h
    exact hostPhase_eq_wait (hp ▸ hphase)

/-- Settles O51, by the frame of every operation. -/
theorem outputsOnlyGrow : Obligations.OutputsOnlyGrow := by
  intro i s t h
  obtain ⟨-, hframe⟩ := exec_taken h
  obtain ⟨es, hlog⟩ := hframe.log
  obtain ⟨hcfg, hboot, hfeed, hmax, hrbuf, hwbuf⟩ : _ ∧ _ ∧ _ ∧ _ ∧ _ ∧ _ := by
    simpa only [State.constants, Prod.mk.injEq] using hframe.constants
  exact ⟨⟨es, hlog.symm⟩, hframe.netOut, hcfg, hboot, hfeed, hmax, hrbuf, hwbuf⟩

/-! ## The frames in flight (R35) -/

section
variable {s t : State}

theorem wireFrame_length (p : List Byte) : (wireFrame p).length = p.length + 2 := by simp [wireFrame]

theorem txInFlight_of_holds {p : List Byte} (hcfg : s.cfg.valid = true) (how : s.ifb.wOwner = .device)
    (h : TransmitHolds s p) : txInFlight s = some (.ok (wireFrame p)) := by
  obtain ⟨-, hfit, hholds, hlen⟩ := h
  have hcap := Config.wCap_of_valid hcfg
  have hcount : s.ifb.wLength.toNat = (wireFrame p).length := by
    rw [hlen, BitVec.toNat_ofNat, Nat.mod_eq_of_lt (by omega), wireFrame_length]
  rw [txInFlight, if_pos how, hcount, loadSpan_of_holds hholds (by rw [wireFrame_length]; exact hfit)]

/-- The view of the frame toward the Device depends on the Transmit buffer alone (log entry 23). -/
theorem txInFlight_congr (hcfg : t.cfg = s.cfg) (ht : t.transmit = s.transmit) : txInFlight t = txInFlight s := by
  obtain ⟨how, hlen, hbuf⟩ : _ ∧ _ ∧ _ := by simpa only [State.transmit, Prod.mk.injEq] using ht
  rw [txInFlight, txInFlight, hcfg, how, hlen, hbuf]

/-- A step that is no reset has the frame of an operation, from the state with the trace moved on. -/
theorem step_stepFrame (hr : ∀ b r, traceControl s.feed ≠ some (.reset b, r)) (h : step s = .next t) :
    ∃ f, StepFrame { s with feed := f } t := by
  unfold step at h
  split at h
  · split_ifs at h
    · exact ⟨s.feed, onCrc_stepFrame h⟩
    · split at h
      · exact ⟨s.feed, (exec_taken h).2⟩
      · cases h
  · split at h
    · next hc => exact absurd hc (hr _ _)
    · exact ⟨_, onCrc_stepFrame h⟩
    · split at h
      · exact ⟨_, (exec_taken h).2⟩
      · cases h

end

/-- Settles O52: the views by what the invariant says is written, the step by the frame of every operation. -/
theorem noDatagramLeavesWhileInFlight : Obligations.NoDatagramLeavesWhileInFlight := by
  refine ⟨fun s h => ⟨fun how => ?_, fun how => ?_, fun hp => ?_, fun hp => if_neg hp⟩, fun s t h how hr hstep => ?_⟩
  · obtain ⟨p, hp⟩ := h.payloads.sent (.inl how)
    exact ⟨p, hp.1, hp.2.1, txInFlight_of_holds h.config how hp⟩
  · exact if_neg (by simp [how])
  · obtain ⟨hcap, hw⟩ := h.payloads.copied hp
    obtain ⟨xs, hxs⟩ := loadSpan_of_written (sp := .rxCopy) hw hcap
    exact ⟨xs, (loadSpan_eq_ok.mp hxs).1, by rw [rxInFlight, if_pos hp, hxs]⟩
  · obtain ⟨f, hframe⟩ := step_stepFrame hr hstep
    refine ⟨h.inFlight.outstanding how, ?_, (hframe.transmit how).imp_left (txInFlight_congr (s := s) ?_)⟩
    · obtain ⟨gs, hgs⟩ | ⟨hp, hw⟩ := hframe.netIn
      · exact ⟨gs, hgs.symm⟩
      · have hhost := (h.ownership.woken (by rw [show s.hphase = .txTest from hp]; rfl) hw).1
        exact absurd (hhost.symm.trans how) (by decide)
    · exact congrArg Prod.fst hframe.constants

end Sys2Proof.Machine
end

section
/-! PROOFS. Which operation a step of the decoder and a step of the machine run, said once; then that every step keeps
the payload spaces in canonical form (O54). -/

namespace Sys2Proof.Machine

section
variable {s t : State}

/-! ## Steps by the operation they run -/

/-- A sample selects an operation of `D_CLASSIFY` (R92). -/
theorem decoderPhase_sampleOp (raw : Byte) : decoderPhase (sampleOp raw) = some .classify := by
  unfold sampleOp
  cases classify raw <;> rfl

/-- A pair selects an operation of `D_PAIR` (R94). -/
theorem decoderPhase_pairOp (a b : Bool) : decoderPhase (pairOp a b) = some .pair := by
  cases a <;> cases b <;> rfl

/-- The selected operation is one of the decoder's phase (R90). -/
theorem decoderPhase_of_decOp {i : Instr} (h : decOp s = .ok i) : decoderPhase i = some s.dec.phase := by
  unfold decOp at h
  cases hp : s.dec.phase <;> simp only [hp] at h
  case classify =>
    split at h <;> cases h
    exact decoderPhase_sampleOp _
  case pair =>
    split_ifs at h
    · cases h; rfl
    · cases h; rfl
    · split at h <;> cases h
      exact decoderPhase_pairOp _ _
  case check => split_ifs at h <;> cases h <;> rfl
  all_goals cases h; rfl

/-- Outside `D_IDLE` a step of the decoder is the selected operation. -/
theorem decStep_eq_exec {i : Instr} (hp : s.dec.phase ≠ .idle) (h : decOp s = .ok i) : decStep s = exec i s := by
  have hi := decoderPhase_of_decOp h
  unfold decStep
  rw [h]
  cases i with
  | dec | arbRxdecode | rlyIn _ => exact absurd (Option.some.inj hi).symm hp
  | decStart | decShort _ | decSingle _ | decAmbig _ | decDouble _ | decLong _ | decParity | decPair1 | decPair0
  | decPairf00 | decPairf11 | decByte | decOvf | decAlign | decRunt | decCheck | decDone => rfl
  | _ => cases hi

theorem decStep_eq_fault {r : Fault} (h : decOp s = .error r) : decStep s = .fault r := by
  unfold decStep
  rw [h]

/-- All a step can be: a reset, the return of a CRC16, or an operation, with the trace moved on (R14, R310). -/
theorem step_eq_next_cases (h : step s = .next t) :
    (∃ b f, t = State.resetFor s.cfg b f) ∨ ∃ f, execCrcReturn { s with feed := f } = .next t ∨
      ∃ i, exec i { s with feed := f } = .next t := by
  unfold step at h
  split at h
  · split_ifs at h
    · exact .inr ⟨s.feed, .inl h⟩
    · split at h
      · exact .inr ⟨s.feed, .inr ⟨_, h⟩⟩
      · cases h
  · split at h
    · exact .inl ⟨_, _, (Host.Outcome.next.inj h).symm⟩
    · exact .inr ⟨_, .inl h⟩
    · split at h
      · exact .inr ⟨_, .inr ⟨_, h⟩⟩
      · cases h

/-! ## Canonical form (O54) -/

/-- The five payload spaces. -/
def State.payloads (s : State) : Memory Byte × Memory Byte × Memory Byte × Memory Bool × Memory Byte :=
  (s.rbuf, s.wbuf, s.rxCopy, s.dec.levels, s.dec.out)

/-- An operation that stores nothing. -/
theorem MemoriesCanonical.same (h : MemoriesCanonical s) (ht : t.payloads = s.payloads) : MemoriesCanonical t := by
  simp only [State.payloads, Prod.mk.injEq] at ht
  obtain ⟨hrbuf, hwbuf, hcopy, hlevels, hout⟩ := ht
  exact ⟨hrbuf ▸ h.rbuf, hwbuf ▸ h.wbuf, hcopy ▸ h.rxCopy, hlevels ▸ h.levels, hout ▸ h.out⟩

/-- A store leaves its space in canonical form, whatever is done with it then. -/
theorem Out.Ensures.store {α : Type} {P : State → Prop} {sp : Space} {cap a : Nat} {m : Memory α} {xs : List α}
    {f : Memory α → Out} (hm : Memory.wf m = true) (h : ∀ m', Memory.wf m' = true → Out.Ensures P (f m')) :
    Out.Ensures P (reading (storeSpan sp cap m a xs) f) := by
  intro t ht
  obtain ⟨m', hm', ht⟩ := reading_eq_next.mp ht
  exact h m' (storeSpan_wf hm' hm) t ht

theorem Out.Ensures.ite {P : State → Prop} {c : Prop} [Decidable c] {o o' : Out} (h : Out.Ensures P o)
    (h' : Out.Ensures P o') : Out.Ensures P (if c then o else o') := by
  split_ifs <;> assumption

open Out (Ensures)

/-- A decoder operation stores in `L` or in `out`, or nowhere. -/
theorem exec_decoder_canonical {i : Instr} {p : DPhase} (h : MemoriesCanonical s) (hi : decoderPhase i = some p)
    (hp : p ≠ .idle) : Ensures MemoriesCanonical (exec i s) := by
  cases i with
  | decShort _ | decAmbig _ | decLong _ =>
    exact .ite_enabled fun _ => .read fun _ => .ite_enabled fun _ => .next (h.same rfl)
  | decSingle _ | decDouble _ =>
    exact .ite_enabled fun _ => .read fun _ => .ite_enabled fun _ =>
      .store h.levels fun _ hm => .next { h with levels := hm }
  | decParity =>
    exact .ite_enabled fun _ => .ite (.store h.levels fun _ hm => .next { h with levels := hm }) (.next (h.same rfl))
  | decPair1 | decPair0 | decPairf00 | decPairf11 =>
    exact .ite_enabled fun _ => .read fun _ => .ite_enabled fun _ => .next (h.same rfl)
  | decByte => exact .ite_enabled fun _ => .store h.out fun _ hm => .next { h with out := hm }
  | decOvf | decRunt => exact .ite_enabled fun _ => .next (h.same rfl)
  | decAlign => exact .ite_enabled fun _ => .ite (.next (h.same rfl)) (.next (h.same rfl))
  | decCheck => exact .ite_enabled fun _ => .read fun _ => .ite (.next (h.same rfl)) (.next (h.same rfl))
  | decDone => exact .ite_enabled fun _ => .read fun _ => .next (h.same rfl)
  | decStart | dec | arbRxdecode | rlyIn _ => exact absurd (Option.some.inj hi).symm hp
  | _ => cases hi

theorem decLoop_canonical (n : Nat) (h : MemoriesCanonical s) : Ensures MemoriesCanonical (decLoop n s) := by
  induction n generalizing s with
  | zero => exact .next h
  | succ n ih =>
    unfold decLoop
    split_ifs with hp
    · exact .next h
    · refine .and_then fun u hu => ih ?_
      cases hop : decOp s with
      | ok i =>
        rw [decStep_eq_exec hp hop] at hu
        exact exec_decoder_canonical h (decoderPhase_of_decOp hop) hp u hu
      | error r =>
        rw [decStep_eq_fault hop] at hu
        cases hu

theorem decRun_canonical (h : MemoriesCanonical s) : Ensures MemoriesCanonical (decRun s) := .and_then fun u hu => by
  obtain ⟨-, -, -, rfl⟩ := execDecStart_eq_next.mp hu
  exact decLoop_canonical _ (h.same rfl)

theorem encStore_canonical (p : List Byte) (h : MemoriesCanonical s) : Ensures MemoriesCanonical (encStore p s) :=
  .owns_tx fun _ => .store h.wbuf fun _ hm => .next { h with wbuf := hm }

theorem encCommit_canonical (p : List Byte) (h : MemoriesCanonical s) : Ensures MemoriesCanonical (encCommit p s) :=
  encStore_canonical p (h.same rfl)

theorem fillPayload_canonical (p : List Byte) (h : MemoriesCanonical s) :
    Ensures MemoriesCanonical (fillPayload p s) := by
  unfold fillPayload
  cases encRefusal s.cfg p.length with
  | some e => exact .next (h.same rfl)
  | none => exact .and_then fun u hu => .next ((encCommit_canonical p h u hu).same rfl)

/-- Each store is into a canonical space, and nothing but stores touches one. -/
theorem exec_canonical (i : Instr) (h : MemoriesCanonical s) : Ensures MemoriesCanonical (exec i s) := by
  by_cases hi : ∃ p, decoderPhase i = some p ∧ p ≠ .idle
  · obtain ⟨p, hi, hp⟩ := hi
    exact exec_decoder_canonical h hi hp
  cases i with
  | crcInit | crcLoad _ | crcByte _ | crc16 _ | decStart | encCrc _ | devTxdone _ | devSignal =>
    exact .ite_enabled fun _ => .next (h.same rfl)
  | crcBit => exact .ite_enabled fun _ => .ite_enabled fun _ => .next (h.same rfl)
  | serLevels _ | serDur _ | netArrive _ _ => exact .next (h.same rfl)
  | arbArm | arbAck => exact .at_phase fun _ => .next (h.same rfl)
  | arbWait | arbTick => exact .at_phase fun _ => .ite_enabled fun _ => .next (h.same rfl)
  | arbBoot => exact .at_phase fun _ => .ite_enabled fun _ => .ite (.next (h.same rfl)) (.next (h.same rfl))
  | arbRxtest | arbTxowner => exact .at_phase fun _ => .ite (.next (h.same rfl)) (.next (h.same rfl))
  | arbRxstatus =>
    exact .at_phase fun _ => .owns_rx <| .ite (.ite (.next (h.same rfl)) (.next (h.same rfl)))
      (.ite (.read fun _ => .next (h.same rfl)) (.next (h.same rfl)))
  | arbRxtrunc =>
    obtain ⟨l, b, hclear⟩ := clearTruncated_eq s
    exact .at_phase fun _ => .owns_rx <| .next (h.same (by rw [hclear]; rfl))
  | arbRxcopy =>
    exact .at_phase fun _ => .owns_rx <| .read fun _ => .store h.rxCopy fun _ hm => .next { h with rxCopy := hm }
  | arbRxrelease => exact .at_phase fun _ => .owns_rx <| .next (h.same rfl)
  | arbRxdecode =>
    refine .at_phase fun _ => .ite_enabled fun _ => .and_then fun u hu => .next ?_
    obtain ⟨l, g, -, hdeliv⟩ := deliver_eq u
    have hu : MemoriesCanonical u := (Ensures.ite (.next h) (decRun_canonical h)) u hu
    exact hu.same (by rw [hdeliv]; rfl)
  | arbTxdone =>
    obtain ⟨l, hexam⟩ := examineTransmit_eq s
    exact .at_phase fun _ => .next (h.same (by rw [hexam]; rfl))
  | arbTxtest =>
    refine .at_phase fun _ => .ite ?_ (.next (h.same rfl))
    cases s.netIn with
    | cons g gs => exact .next (h.same rfl)
    | nil => exact .fault _
  | arbTxfill =>
    refine .at_phase fun _ => .ite_enabled fun _ => ?_
    cases relayOut s.txDgram with
    | error e => exact .next (h.same rfl)
    | ok r => exact fillPayload_canonical _ (h.same (by rw [State.logIf_eq]; rfl))
  | arbTxrelease => exact .at_phase fun _ => .owns_tx fun _ => .next (h.same rfl)
  | encCheck q =>
    refine .ite_enabled fun _ => ?_
    cases encRefusal s.cfg q <;> exact .next (h.same rfl)
  | encFill p => exact .ite_enabled fun _ => .and_then fun u hu => .next ((encStore_canonical p h u hu).same rfl)
  | enc p =>
    refine .ite_enabled fun _ => ?_
    cases encRefusal s.cfg p.length with
    | some e => exact .next (h.same rfl)
    | none => exact .and_then fun u hu => .next ((encCommit_canonical p h u hu).same rfl)
  | rlyIn f =>
    refine .ite_enabled fun _ => ?_
    cases relayIn f <;> exact .next (h.same rfl)
  | rlyOut g =>
    refine .ite_enabled fun _ => ?_
    cases relayOut g with
    | ok r => exact .next (h.same (by rw [State.logIf_eq]; rfl))
    | error e => exact .next (h.same rfl)
  | devRxdone d st b =>
    exact .ite_enabled fun _ => .ite (.refused _) (.store h.rbuf fun _ hm => .next { h with rbuf := hm })
  | dec => exact .ite_enabled fun _ => decRun_canonical h
  | _ => exact absurd ⟨_, rfl, by decide⟩ hi

end

/-- Settles O54: a reset empties the spaces, the return of a CRC16 leaves them, and every operation keeps the form. -/
theorem stepsKeepMemoriesCanonical : Obligations.StepsKeepMemoriesCanonical := by
  intro s t h hstep
  obtain ⟨b, f, rfl⟩ | ⟨f, hret | ⟨i, hexec⟩⟩ := step_eq_next_cases hstep
  · obtain ⟨hrbuf, hwbuf, hcopy, hlevels, hout⟩ := State.resetFor_memories s.cfg b f
    exact ⟨hrbuf, hwbuf, hcopy, hlevels, hout⟩
  · obtain ⟨-, -, rfl⟩ := onCrc_eq_next.mp hret
    exact h.same rfl
  · have hfeed : MemoriesCanonical { s with feed := f } := h.same rfl
    exact exec_canonical i hfeed t hexec

end Sys2Proof.Machine
end

section
/-! PROOFS. An outcome beside the outcome from a state with another `r_buf`: one rule for each shared step, then every
operation while the Device owns Receive (O53). -/

namespace Sys2Proof.Machine

/-- The state with other contents of the Receive buffer. -/
def State.withRbuf (s : State) (m : Memory Byte) : State := { s with rbuf := m }

/-- Where `o` answers a next state, `o'` answers one that differs from it at most in `r_buf`. -/
def Out.SameButRbuf (o o' : Out) : Prop := ∀ t, o = .next t → ∃ m, o' = .next (t.withRbuf m)

namespace Out.SameButRbuf
variable {o o' : Out}

theorem next {t : State} {m : Memory Byte} : SameButRbuf (.next t) (.next (t.withRbuf m)) := by
  rintro _ ⟨⟩; exact ⟨m, rfl⟩

theorem fault (r : Fault) : SameButRbuf (.fault r) o' := by rintro _ ⟨⟩

theorem refused (r : Refusal) : SameButRbuf (.refused r) o' := by rintro _ ⟨⟩

theorem ite {c : Prop} [Decidable c] {p p' : Out} (h : SameButRbuf o o') (h' : SameButRbuf p p') :
    SameButRbuf (if c then o else p) (if c then o' else p') := by
  split_ifs <;> assumption

theorem enabled {n : String} {c : Bool} (h : SameButRbuf o o') : SameButRbuf (enabledIf n c o) (enabledIf n c o') :=
  .ite h (.refused _)

theorem owns_tx {s s' : State} (hs : s'.ifb.wOwner = s.ifb.wOwner) (h : SameButRbuf o o') :
    SameButRbuf (hostOwnsTx s o) (hostOwnsTx s' o') := by
  unfold hostOwnsTx
  rw [hs]
  exact .ite h (.refused _)

/-- Host does not touch the buffer while the Device owns it (R70). -/
theorem owns_rx {s : State} (hs : s.ifb.rOwner = .device) : SameButRbuf (hostOwnsRx s o) o' := fun t ht =>
  absurd ((hostOwnsRx_eq_next.mp ht).1.symm.trans hs) (by decide)

/-- A read of anything but `r_buf` answers the same. -/
theorem read {α : Type} {x : Except Fault α} {f g : α → Out} (h : ∀ v, SameButRbuf (f v) (g v)) :
    SameButRbuf (reading x f) (reading x g) := by
  cases x with
  | ok v => exact h v
  | error r => exact .fault r

/-- Whether a store fits does not depend on what the space holds (R69). -/
theorem store {α : Type} {sp : Space} {cap a : Nat} {m m' : Memory α} {xs : List α} {f g : Memory α → Out}
    (h : ∀ v v', SameButRbuf (f v) (g v')) :
    SameButRbuf (reading (storeSpan sp cap m a xs) f) (reading (storeSpan sp cap m' a xs) g) := by
  unfold storeSpan
  split_ifs
  · exact h _ _
  · exact .fault _

theorem and_then {f g : State → Out} (h : SameButRbuf o o') (hf : ∀ u m, SameButRbuf (f u) (g (u.withRbuf m))) :
    SameButRbuf (Out.andThen o f) (Out.andThen o' g) := by
  intro t ht
  obtain ⟨u, hu, ht⟩ := Out.andThen_eq_next.mp ht
  obtain ⟨m, rfl⟩ := h u hu
  exact hf u m t ht

end Out.SameButRbuf

open Out (SameButRbuf)

section
variable (s : State) (m : Memory Byte)

/-! ## Updates that do not look at `r_buf` -/

@[simp] theorem State.withRbuf_cfg : (s.withRbuf m).cfg = s.cfg := rfl
@[simp] theorem State.withRbuf_dec : (s.withRbuf m).dec = s.dec := rfl
@[simp] theorem State.withRbuf_ifb : (s.withRbuf m).ifb = s.ifb := rfl
@[simp] theorem State.withRbuf_txDgram : (s.withRbuf m).txDgram = s.txDgram := rfl
@[simp] theorem State.withRbuf_netIn : (s.withRbuf m).netIn = s.netIn := rfl
@[simp] theorem State.withRbuf_progress : (s.withRbuf m).progress = s.progress := rfl

theorem State.logIf_withRbuf (e : Option Event) : (s.withRbuf m).logIf e = (s.logIf e).withRbuf m := by
  cases e <;> rfl

theorem examineTransmit_withRbuf : examineTransmit (s.withRbuf m) = (examineTransmit s).withRbuf m := by
  have hfin : txFinished (s.withRbuf m) = txFinished s := rfl
  unfold examineTransmit
  rw [hfin, State.withRbuf_ifb, State.logIf_withRbuf]
  cases txFinished s <;> rfl

theorem deliver_withRbuf : deliver (s.withRbuf m) = (deliver s).withRbuf m := by
  unfold deliver
  rw [State.withRbuf_dec, State.withRbuf_progress]
  cases s.dec.result with
  | error e => rfl
  | frame f n c =>
    dsimp only
    cases relayIn f with
    | error e => rfl
    | ok g =>
      dsimp only
      split_ifs <;> rfl

/-! ## The decoder -/

/-- The decoder reads `rx_copy`, `L` and `out` only. -/
theorem exec_decoder_sameButRbuf {i : Instr} {p : DPhase} (hi : decoderPhase i = some p) (hp : p ≠ .idle) :
    SameButRbuf (exec i s) (exec i (s.withRbuf m)) := by
  cases i with
  | decShort _ | decAmbig _ | decLong _ | decPair1 | decPair0 | decPairf00 | decPairf11 =>
    exact .enabled <| .read fun _ => .enabled .next
  | decSingle _ | decDouble _ => exact .enabled <| .read fun _ => .enabled <| .read fun _ => .next
  | decParity => exact .enabled <| .ite (.read fun _ => .next) .next
  | decByte | decDone => exact .enabled <| .read fun _ => .next
  | decOvf | decRunt => exact .enabled .next
  | decAlign => exact .enabled <| .ite .next .next
  | decCheck => exact .enabled <| .read fun _ => .ite .next .next
  | decStart | dec | arbRxdecode | rlyIn _ => exact absurd (Option.some.inj hi).symm hp
  | _ => cases hi

theorem decLoop_sameButRbuf (n : Nat) : SameButRbuf (decLoop n s) (decLoop n (s.withRbuf m)) := by
  induction n generalizing s m with
  | zero => exact .next
  | succ n ih =>
    unfold decLoop
    rw [State.withRbuf_dec]
    split_ifs with hp
    · exact .next
    · refine .and_then ?_ ih
      cases hop : decOp s with
      | ok i =>
        rw [decStep_eq_exec hp hop, decStep_eq_exec (s := s.withRbuf m) hp hop]
        exact exec_decoder_sameButRbuf s m (decoderPhase_of_decOp hop) hp
      | error r =>
        rw [decStep_eq_fault hop]
        exact .fault r

theorem decRun_sameButRbuf : SameButRbuf (decRun s) (decRun (s.withRbuf m)) :=
  .and_then (.enabled .next) fun u m' => decLoop_sameButRbuf u m' (decSteps s.rxLen)

/-! ## The encoder -/

theorem encStore_sameButRbuf (p : List Byte) : SameButRbuf (encStore p s) (encStore p (s.withRbuf m)) :=
  .owns_tx rfl <| .read fun _ => .next

theorem encCommit_sameButRbuf (p : List Byte) : SameButRbuf (encCommit p s) (encCommit p (s.withRbuf m)) :=
  encStore_sameButRbuf (encChecksum p (encAdmit p.length s)) m p

theorem fillPayload_sameButRbuf (p : List Byte) :
    SameButRbuf (fillPayload p s) (fillPayload p (s.withRbuf m)) := by
  unfold fillPayload
  rw [State.withRbuf_cfg]
  cases encRefusal s.cfg p.length with
  | some e => exact .next
  | none => exact .and_then (encCommit_sameButRbuf s m p) fun _ _ => .next

/-! ## Every operation -/

/-- The operations that read `r_buf` are not taken then, and whether DEV.RXDONE, which writes it, is taken depends on
the count alone (R70, R215). -/
theorem exec_sameButRbuf (i : Instr) (hs : s.ifb.rOwner = .device) :
    SameButRbuf (exec i s) (exec i (s.withRbuf m)) := by
  by_cases hi : ∃ p, decoderPhase i = some p ∧ p ≠ .idle
  · obtain ⟨p, hi, hp⟩ := hi
    exact exec_decoder_sameButRbuf s m hi hp
  cases i with
  | crcInit | crcLoad _ | crcByte _ | crc16 _ | decStart | encCrc _ | devTxdone _ | devSignal | arbArm | arbAck =>
    exact .enabled .next
  | crcBit | arbWait | arbTick => exact .enabled <| .enabled .next
  | serLevels _ | serDur _ | netArrive _ _ => exact .next
  | arbBoot => exact .enabled <| .enabled <| .ite .next .next
  | arbRxtest | arbTxowner => exact .enabled <| .ite .next .next
  | arbRxstatus | arbRxtrunc | arbRxcopy | arbRxrelease => exact .enabled <| .owns_rx hs
  | arbRxdecode =>
    refine .enabled <| .enabled <| .and_then (.ite .next (decRun_sameButRbuf s m)) fun u m' => ?_
    rw [deliver_withRbuf]
    exact .next
  | arbTxdone =>
    refine .enabled ?_
    rw [examineTransmit_withRbuf]
    exact .next
  | arbTxtest =>
    refine .enabled <| .ite ?_ .next
    rw [State.withRbuf_netIn]
    cases s.netIn with
    | cons g gs => exact .next
    | nil => exact .fault _
  | arbTxfill =>
    refine .enabled <| .enabled ?_
    rw [State.withRbuf_txDgram]
    cases relayOut s.txDgram with
    | error e => exact .next
    | ok r =>
      dsimp only
      rw [State.withRbuf_progress, State.logIf_withRbuf]
      exact fillPayload_sameButRbuf _ m _
  | arbTxrelease => exact .enabled <| .owns_tx rfl .next
  | encCheck q =>
    refine .enabled ?_
    rw [State.withRbuf_cfg]
    cases encRefusal s.cfg q <;> exact .next
  | encFill p => exact .enabled <| .and_then (encStore_sameButRbuf s m p) fun _ _ => .next
  | enc p =>
    refine .enabled ?_
    rw [State.withRbuf_cfg]
    cases encRefusal s.cfg p.length with
    | some e => exact .next
    | none => exact .and_then (encCommit_sameButRbuf s m p) fun _ _ => .next
  | rlyIn f =>
    refine .enabled ?_
    cases relayIn f <;> exact .next
  | rlyOut g =>
    refine .enabled ?_
    cases relayOut g with
    | ok r =>
      dsimp only
      rw [State.logIf_withRbuf]
      exact .next
    | error e => exact .next
  | devRxdone d st b => exact .enabled <| .ite (.refused _) <| .store fun _ _ => .next
  | dec => exact .enabled (decRun_sameButRbuf s m)
  | _ => exact absurd ⟨_, rfl, by decide⟩ hi

end

/-- Settles O53, by one rule per shared step for two outcomes side by side, over every operation. -/
theorem deviceOwnedPayloadIsInvisible : Obligations.DeviceOwnedPayloadIsInvisible :=
  fun i s t m hs h => exec_sameButRbuf s m i hs t h

end Sys2Proof.Machine
end

section
/-! PROOFS. The binary trace: each operand reader accepts exactly what its writer writes, and so the decoder and the
encoder are inverse (O45, O46, O47). Between them, what the value of a sample and the pattern of a pair select (O7). -/

namespace Sys2Proof

open Sys2Proof.Machine

/-! ## Operand readers -/

section
variable {α : Type} {fits : α → Bool} {put : α → List Byte} {take : List Byte → Except DecodeError (α × List Byte)}

/-- The reader `take` accepts exactly the bytes the writer `put` makes of a value that fits, and leaves what follows. -/
def ReadsBack (fits : α → Bool) (put : α → List Byte) (take : List Byte → Except DecodeError (α × List Byte)) : Prop :=
  ∀ l v r, take l = .ok (v, r) ↔ fits v = true ∧ l = put v ++ r

/-- A reader accepts what its writer wrote. -/
theorem ReadsBack.take_put (h : ReadsBack fits put take) {v : α} (hv : fits v = true) (r : List Byte) :
    take (put v ++ r) = .ok (v, r) := (h _ v r).mpr ⟨hv, rfl⟩

theorem withOperand_eq_ok {x : Except DecodeError (α × List Byte)} {f : α → Instr} {i : Instr} {r : List Byte} :
    withOperand x f = .ok (i, r) ↔ ∃ v, x = .ok (v, r) ∧ i = f v := by
  rcases x with e | ⟨v, r'⟩
  · simp [withOperand]
  · simp only [withOperand, Except.ok.injEq, Prod.mk.injEq]
    constructor
    · rintro ⟨rfl, rfl⟩; exact ⟨v, ⟨rfl, rfl⟩, rfl⟩
    · rintro ⟨_, ⟨rfl, rfl⟩, rfl⟩; exact ⟨rfl, rfl⟩

end

theorem countFits_iff {n : Nat} : countFits n = true ↔ n < 2 ^ 32 := by rw [countFits, decide_eq_true_eq]

theorem readsBack_count : ReadsBack countFits putCount takeCount := by
  intro l n r
  rw [countFits_iff]
  constructor
  · intro h
    match l, h with
    | a :: b :: c :: d :: l', h =>
      obtain ⟨rfl, rfl⟩ : _ = n ∧ l' = r := by simpa [takeCount] using h
      refine ⟨by omega, ?_⟩
      simp only [putCount, List.cons_append, List.nil_append, List.cons.injEq, and_true]
      refine ⟨?_, ?_, ?_, ?_⟩ <;> exact BitVec.eq_of_toNat_eq (by rw [BitVec.toNat_ofNat]; omega)
  · rintro ⟨hn, rfl⟩
    exact takeCount_putCount hn r

theorem readsBack_byte : ReadsBack (fun _ => true) (fun b => [b]) takeByte := by
  intro l b r
  cases l <;> simp [takeByte]

theorem readsBack_word : ReadsBack (fun _ => true) putWord takeWord := by
  intro l w r
  constructor
  · intro h
    match l, h with
    | a :: b :: l', h =>
      obtain ⟨rfl, rfl⟩ : beWord a b = w ∧ l' = r := by simpa [takeWord] using h
      simp [putWord, hi_beWord, lo_beWord]
  · rintro ⟨-, rfl⟩
    exact takeWord_putWord w r

theorem readsBack_flag : ReadsBack (fun _ => true) (fun f => [putFlag f]) takeFlag := by
  intro l f r
  constructor
  · intro h
    cases l with
    | nil => cases h
    | cons b l' =>
      simp only [takeFlag] at h
      split_ifs at h with h0 h1
      · cases h; subst h0; exact ⟨rfl, rfl⟩
      · cases h; subst h1; exact ⟨rfl, rfl⟩
  · rintro ⟨-, rfl⟩
    exact takeFlag_putFlag f r

theorem takeBytes_eq_ok {n : Nat} {l bs r : List Byte} :
    takeBytes n l = .ok (bs, r) ↔ bs.length = n ∧ l = bs ++ r := by
  constructor
  · intro h
    induction n generalizing l bs with
    | zero => cases h; exact ⟨rfl, rfl⟩
    | succ n ih =>
      cases l with
      | nil => cases h
      | cons b l' =>
        rw [takeBytes] at h
        split at h <;> cases h
        next bs' hrec =>
          obtain ⟨rfl, rfl⟩ := ih hrec
          exact ⟨rfl, rfl⟩
  · rintro ⟨rfl, rfl⟩
    exact takeBytes_append bs r

theorem takeFlags_eq_ok {n : Nat} {l r : List Byte} {fs : List Bool} :
    takeFlags n l = .ok (fs, r) ↔ fs.length = n ∧ l = fs.map putFlag ++ r := by
  constructor
  · intro h
    induction n generalizing l fs with
    | zero => cases h; exact ⟨rfl, rfl⟩
    | succ n ih =>
      rw [takeFlags] at h
      split at h
      · cases h
      next f l' hflag =>
        split at h <;> cases h
        next fs' hrec =>
          obtain ⟨-, rfl⟩ := (readsBack_flag _ _ _).mp hflag
          obtain ⟨rfl, rfl⟩ := ih hrec
          exact ⟨rfl, rfl⟩
  · rintro ⟨rfl, rfl⟩
    exact takeFlags_map fs r

theorem readsBack_seq : ReadsBack (fun bs => countFits bs.length) putSeq takeSeq := by
  intro l bs r
  constructor
  · intro h
    unfold takeSeq at h
    split at h
    · next n l' hcount =>
      obtain ⟨hn, rfl⟩ := (readsBack_count _ _ _).mp hcount
      obtain ⟨rfl, rfl⟩ := takeBytes_eq_ok.mp h
      exact ⟨hn, (List.append_assoc _ _ _).symm⟩
    · cases h
  · rintro ⟨hn, rfl⟩
    exact takeSeq_putSeq (countFits_iff.mp hn) r

theorem readsBack_bits : ReadsBack (fun fs => countFits fs.length) putBits takeBits := by
  intro l fs r
  constructor
  · intro h
    unfold takeBits at h
    split at h
    · next n l' hcount =>
      obtain ⟨hn, rfl⟩ := (readsBack_count _ _ _).mp hcount
      obtain ⟨rfl, rfl⟩ := takeFlags_eq_ok.mp h
      exact ⟨hn, (List.append_assoc _ _ _).symm⟩
    · cases h
  · rintro ⟨hn, rfl⟩
    exact takeBits_putBits (countFits_iff.mp hn) r

theorem takeFrame_eq_ok {l f r : List Byte} : takeFrame l = .ok (f, r) ↔ takeSeq l = .ok (f, r) ∧ 2 ≤ f.length := by
  unfold takeFrame
  rcases takeSeq l with e | ⟨f', r'⟩
  · simp
  · simp only [Except.ok.injEq, Prod.mk.injEq]
    constructor
    · intro h
      split_ifs at h with hlen
      cases h
      exact ⟨⟨rfl, rfl⟩, hlen⟩
    · rintro ⟨⟨rfl, rfl⟩, hlen⟩
      exact if_pos hlen

/-- RLY.IN's operand has its two CRC bytes as well (R250). -/
theorem readsBack_frame : ReadsBack (fun f => countFits f.length && decide (2 ≤ f.length)) putSeq takeFrame := by
  intro l f r
  rw [takeFrame_eq_ok, readsBack_seq, Bool.and_eq_true, decide_eq_true_eq, and_right_comm]

/-- DEV.RXDONE's operands (R215). -/
theorem takeReceive_eq_ok {l r : List Byte} {i : Instr} :
    takeReceive l = .ok (i, r) ↔ ∃ d l₁ st l₂ t, takeSeq l = .ok (d, l₁) ∧ takeWord l₁ = .ok (st, l₂) ∧
      takeFlag l₂ = .ok (t, r) ∧ i = .devRxdone d st t := by
  unfold takeReceive
  rcases takeSeq l with e | ⟨d, l₁⟩
  · simp
  rcases hw : takeWord l₁ with e | ⟨st, l₂⟩
  · simp [hw]
  · simp [hw, withOperand_eq_ok]

/-- NET.ARRIVE's operands (R218). -/
theorem takeArrival_eq_ok {l r : List Byte} {i : Instr} :
    takeArrival l = .ok (i, r) ↔ ∃ g l₁ lost, takeSeq l = .ok (g, l₁) ∧ takeFlag l₁ = .ok (lost, r) ∧
      i = .netArrive g lost := by
  unfold takeArrival
  rcases takeSeq l with e | ⟨g, l₁⟩
  · simp
  · simp [withOperand_eq_ok]

/-! ## What the sample and the pair select (R92, R94) -/

/-- `width_ns` loses nothing: nine bits hold twice a byte (R91, R142). -/
theorem widthNs_toNat (raw : Byte) : (widthNs raw).toNat = 2 * raw.toNat := by
  have := raw.isLt
  have h2 : (2 : BitVec 9).toNat = 2 := rfl
  rw [widthNs, BitVec.toNat_mul, BitVec.toNat_setWidth, h2]
  omega

/-- The thresholds 120, 230, 280 and 400 ns are 60, 115, 140 and 200 counts of a sample (R92). -/
theorem classify_eq_ite (raw : Byte) :
    classify raw = if raw.toNat < 60 then .short else if raw.toNat < 115 then .single
      else if raw.toNat < 140 then .ambig else if raw.toNat < 200 then .double else .long := by
  have hlt {t : BitVec 9} {n : Nat} (h : t.toNat = 2 * n) : widthNs raw < t ↔ raw.toNat < n := by
    rw [BitVec.lt_def, widthNs_toNat, h]
    omega
  have h60 : widthNs raw < 120 ↔ raw.toNat < 60 := hlt rfl
  have h115 : widthNs raw < 230 ↔ raw.toNat < 115 := hlt rfl
  have h140 : widthNs raw < 280 ↔ raw.toNat < 140 := hlt rfl
  have h200 : widthNs raw < 400 ↔ raw.toNat < 200 := hlt rfl
  simp only [classify, classifyWidth, h60, h115, h140, h200]

theorem sampleOp_eq_ite (raw : Byte) :
    sampleOp raw = if raw.toNat < 60 then .decShort raw else if raw.toNat < 115 then .decSingle raw
      else if raw.toNat < 140 then .decAmbig raw else if raw.toNat < 200 then .decDouble raw else .decLong raw := by
  rw [sampleOp, classify_eq_ite]
  split_ifs <;> rfl

theorem pairOp_eq_ite (a b : Bool) :
    pairOp a b = if a = b then (if a then .decPairf11 else .decPairf00) else if a then .decPair1 else .decPair0 := by
  cases a <;> cases b <;> rfl

theorem decOp_of_classify {s : State} {raw : Byte} (hp : s.dec.phase = .classify) (hr : loadSample s = .ok raw) :
    decOp s = .ok (sampleOp raw) := by
  simp only [decOp, hp, hr]

theorem decOp_of_pair {s : State} {a b : Bool} (hp : s.dec.phase = .pair) (hn : s.dec.nbits ≠ 8)
    (hr : loadPair s = .ok (a, b)) : decOp s = .ok (pairOp a b) := by
  simp only [decOp, hp, if_neg hn, hr]

/-- Settles O7: the phase leaves the choice to the data (R90), and the data choose by the tables of R92 and R94. -/
theorem dataSelectsTheOperation : Obligations.DataSelectsTheOperation := by
  constructor
  · intro s raw hp hk hr
    rw [decOp_of_classify hp (loadCell_eq_ok.mpr ⟨hk, hr⟩), sampleOp_eq_ite]
  · intro s a b hp hn hi ha hb
    have hi' : s.dec.i < s.cfg.lCap := Nat.lt_of_succ_lt hi
    rw [decOp_of_pair hp hn.ne (loadPair_eq_ok.mpr ⟨loadCell_eq_ok.mpr ⟨hi', ha⟩, loadCell_eq_ok.mpr ⟨hi, hb⟩⟩),
      pairOp_eq_ite]

/-! ## The encoder then the decoder -/

/-- A head whose reader takes one operand reads back what was written after it. -/
theorem ReadsBack.decode_operand {α : Type} {fits : α → Bool} {put : α → List Byte}
    {take : List Byte → Except DecodeError (α × List Byte)} (h : ReadsBack fits put take) {b₀ b₁ : Byte} {f : α → Instr}
    (hd : ∀ l, decode (b₀ :: b₁ :: l) = withOperand (take l) f) {v : α} (hv : fits v = true) (r : List Byte) :
    decode (b₀ :: b₁ :: (put v ++ r)) = .ok (f v, r) := by
  rw [hd, withOperand_eq_ok]
  exact ⟨v, h.take_put hv r, rfl⟩

theorem decode_sample (raw : Byte) (l : List Byte) : decode (0x40 :: raw :: l) = .ok (sampleOp raw, l) := rfl

theorem decode_receive (l : List Byte) : decode (0x60 :: 0x00 :: l) = takeReceive l := by simp [decode, decodeHead]

theorem decode_arrival (l : List Byte) : decode (0x70 :: 0x00 :: l) = takeArrival l := by simp [decode, decodeHead]

theorem encode_devRxdone_append (d : List Byte) (st : Word16) (t : Bool) (r : List Byte) :
    encode (.devRxdone d st t) ++ r = 0x60 :: 0x00 :: (putSeq d ++ (putWord st ++ ([putFlag t] ++ r))) := by
  simp [encode]

theorem encode_netArrive_append (g : Datagram) (lost : Bool) (r : List Byte) :
    encode (.netArrive g lost) ++ r = 0x70 :: 0x00 :: (putSeq g ++ ([putFlag lost] ++ r)) := by
  simp [encode]

/-- The operations by what follows their head: a sample, one operand, the operands of DEV.RXDONE and NET.ARRIVE, nothing. -/
theorem decode_encode {i : Instr} (hw : i.wf = true) (r : List Byte) : decode (encode i ++ r) = .ok (i, r) := by
  cases i with
  | decShort raw | decSingle raw | decAmbig raw | decDouble raw | decLong raw =>
    have hc := beq_iff_eq.mp hw
    refine (decode_sample raw r).trans ?_
    rw [sampleOp, hc]
  | crc16 bs | encCrc bs | encFill bs | enc bs | rlyOut bs | serLevels bs =>
    exact readsBack_seq.decode_operand (fun _ => by simp [decode, decodeHead]) hw r
  | rlyIn f => exact readsBack_frame.decode_operand (fun _ => by simp [decode, decodeHead]) hw r
  | encCheck q => exact readsBack_count.decode_operand (fun _ => by simp [decode, decodeHead]) hw r
  | serDur h => exact readsBack_bits.decode_operand (fun _ => by simp [decode, decodeHead]) hw r
  | crcLoad b | crcByte b => exact readsBack_byte.decode_operand (fun _ => by simp [decode, decodeHead]) rfl r
  | devTxdone st => exact readsBack_word.decode_operand (fun _ => by simp [decode, decodeHead]) rfl r
  | devRxdone d st t =>
    rw [encode_devRxdone_append, decode_receive, takeReceive_eq_ok]
    exact ⟨d, _, st, _, t, readsBack_seq.take_put hw _, readsBack_word.take_put rfl _, readsBack_flag.take_put rfl r, rfl⟩
  | netArrive g lost =>
    rw [encode_netArrive_append, decode_arrival, takeArrival_eq_ok]
    exact ⟨g, _, lost, readsBack_seq.take_put hw _, readsBack_flag.take_put rfl r, rfl⟩
  | _ => simp [encode, decode, decodeHead, pairOp]

/-- The first head byte is at most `0x70`, that of NET. -/
theorem encode_head_le (i : Instr) : ∃ b₀ b₁ l, encode i = b₀ :: b₁ :: l ∧ b₀.toNat ≤ 0x70 := by
  cases i <;> exact ⟨_, _, _, rfl, by decide⟩

theorem traceControl_of_head {b₀ b₁ : Byte} {l : List Byte} (h : b₀.toNat ≤ 0x70) :
    traceControl (b₀ :: b₁ :: l) = none := by
  have hFF : b₀ ≠ 0xFF := by rintro rfl; exact absurd h (by decide)
  have hFE : b₀ ≠ 0xFE := by rintro rfl; exact absurd h (by decide)
  simp only [traceControl, hFF, hFE, false_and, if_false]

/-- No operation's bytes begin like a control of the trace (log entries 6 and 18). -/
theorem traceControl_encode (i : Instr) (r : List Byte) : traceControl (encode i ++ r) = none := by
  obtain ⟨b₀, b₁, l, he, hle⟩ := encode_head_le i
  rw [he]
  exact traceControl_of_head hle

/-- Settles O45, by the operand readers, each of which undoes its writer. -/
theorem decodeUndoesEncode : Obligations.DecodeUndoesEncode :=
  fun i r hw => ⟨decode_encode hw r, traceControl_encode i r⟩

/-! ## The decoder then the encoder -/

/-- Whatever operation `x` reads from the bytes `bs`, it is well formed and `bs` begin with its encoding. -/
def ReadsEncoding (bs : List Byte) (x : Except DecodeError (Instr × List Byte)) : Prop :=
  ∀ i r, x = .ok (i, r) → i.wf = true ∧ bs = encode i ++ r

namespace ReadsEncoding
variable {b₀ b₁ : Byte} {l : List Byte}

theorem error {bs : List Byte} (e : DecodeError) : ReadsEncoding bs (.error e) := by rintro _ _ ⟨⟩

theorem plain {i : Instr} (hw : i.wf = true) (he : encode i = [b₀, b₁]) :
    ReadsEncoding (b₀ :: b₁ :: l) (.ok (i, l)) := by
  rintro _ _ ⟨⟩
  exact ⟨hw, by rw [he]; rfl⟩

theorem operand {α : Type} {fits : α → Bool} {put : α → List Byte}
    {take : List Byte → Except DecodeError (α × List Byte)} (h : ReadsBack fits put take) {f : α → Instr}
    (hw : ∀ v, (f v).wf = fits v) (he : ∀ v, encode (f v) = b₀ :: b₁ :: put v) :
    ReadsEncoding (b₀ :: b₁ :: l) (withOperand (take l) f) := by
  intro i r hx
  obtain ⟨v, hv, rfl⟩ := withOperand_eq_ok.mp hx
  obtain ⟨hfits, rfl⟩ := (h l v r).mp hv
  exact ⟨(hw v).trans hfits, by rw [he]; rfl⟩

theorem receive : ReadsEncoding (0x60 :: 0x00 :: l) (takeReceive l) := by
  intro i r hx
  obtain ⟨d, l₁, st, l₂, t, hseq, hword, hflag, rfl⟩ := takeReceive_eq_ok.mp hx
  obtain ⟨hd, rfl⟩ := (readsBack_seq _ _ _).mp hseq
  obtain ⟨-, rfl⟩ := (readsBack_word _ _ _).mp hword
  obtain ⟨-, rfl⟩ := (readsBack_flag _ _ _).mp hflag
  exact ⟨hd, (encode_devRxdone_append d st t r).symm⟩

theorem arrival : ReadsEncoding (0x70 :: 0x00 :: l) (takeArrival l) := by
  intro i r hx
  obtain ⟨g, l₁, lost, hseq, hflag, rfl⟩ := takeArrival_eq_ok.mp hx
  obtain ⟨hg, rfl⟩ := (readsBack_seq _ _ _).mp hseq
  obtain ⟨-, rfl⟩ := (readsBack_flag _ _ _).mp hflag
  exact ⟨hg, (encode_netArrive_append g lost r).symm⟩

theorem sample {raw : Byte} : ReadsEncoding (0x40 :: raw :: l) (.ok (sampleOp raw, l)) := by
  refine plain ?_ ?_
  · cases hc : classify raw <;> simp [sampleOp, hc, Instr.wf]
  · cases hc : classify raw <;> simp [sampleOp, hc, encode]

end ReadsEncoding

/-- The number under which `decodeHead` looks up two head bytes gives them back. -/
theorem head_eq_of_number {b₀ b₁ : Byte} {n : Nat} (h : b₀.toNat * 256 + b₁.toNat = n) :
    b₀ = BitVec.ofNat 8 (n / 256) ∧ b₁ = BitVec.ofNat 8 n := by
  have := b₁.isLt
  constructor <;> exact BitVec.eq_of_toNat_eq (by rw [BitVec.toNat_ofNat]; omega)

open ReadsEncoding in
/-- One rule for each kind of operand; the cases are the rows of `decodeHead` in their order. -/
theorem readsEncoding_decodeHead (b₀ b₁ : Byte) (l : List Byte) :
    ReadsEncoding (b₀ :: b₁ :: l) (decodeHead b₀ b₁ l) := by
  unfold decodeHead
  generalize hn : b₀.toNat * 256 + b₁.toNat = n
  obtain ⟨h₀, h₁⟩ := head_eq_of_number hn
  clear hn
  split
  all_goals subst h₀ h₁
  -- RLY.IN
  case h_11 => exact operand readsBack_frame (fun _ => rfl) fun _ => rfl
  -- ENC.CHECK
  case h_16 => exact operand readsBack_count (fun _ => rfl) fun _ => rfl
  -- ENC.CRC, ENC.FILL, ENC, RLY.OUT, CRC16, SER.LEVELS
  case h_17 | h_18 | h_19 | h_20 | h_33 | h_41 => exact operand readsBack_seq (fun _ => rfl) fun _ => rfl
  -- CRC.LOAD, CRC.BYTE
  case h_34 | h_35 => exact operand readsBack_byte (fun _ => rfl) fun _ => rfl
  -- SER.DUR
  case h_42 => exact operand readsBack_bits (fun _ => rfl) fun _ => rfl
  -- DEV.RXDONE, DEV.TXDONE, NET.ARRIVE
  case h_43 => exact receive
  case h_44 => exact operand readsBack_word (fun _ => rfl) fun _ => rfl
  case h_46 => exact arrival
  -- no operation
  case h_47 => exact error _
  all_goals exact plain rfl rfl

/-- Settles O46, by the operand readers, each of which accepts only what its writer writes. -/
theorem decodedBytesAreTheEncoding : Obligations.DecodedBytesAreTheEncoding := by
  intro bs i r h
  match bs, h with
  | b₀ :: b₁ :: l, h =>
    rw [decode] at h
    split_ifs at h with h40
    · subst h40
      exact ReadsEncoding.sample i r h
    · exact readsEncoding_decodeHead b₀ b₁ l i r h

/-- Settles O47, by evaluating the decoder on the eight words. -/
theorem writtenWordsDecode : Obligations.WrittenWordsDecode := by
  unfold Obligations.WrittenWordsDecode
  decide

end Sys2Proof
end

section
/-! PROOFS. The CRC unit (O2, O3, O4, O5): its primitives as register equations, its composites as closed forms, and the
closed form as a fold of the one-bit step over the bits of the data, most significant first (R120 to R127). -/

namespace Sys2Proof.Machine

/-! ## One iteration (R122) -/

/-- The feedback reads bit 15 of the two registers and nothing else. -/
theorem crcFeedback_iff (r d : Word16) : (r ^^^ d) &&& 0x8000 ≠ 0 ↔ r.getLsbD 15 ≠ d.getLsbD 15 := by
  have hmask : (0x8000 : Word16) = BitVec.twoPow 16 15 := by decide
  rw [hmask, BitVec.and_twoPow, BitVec.getLsbD_xor]
  cases r.getLsbD 15 <;> cases d.getLsbD 15 <;> simp

theorem CrcUnit.bitStep_eq {c : CrcUnit} (hp : c.phase = .bit) : c.bitStep = {
    reg := if c.reg.getLsbD 15 ≠ c.data.getLsbD 15 then (c.reg <<< 1) ^^^ 0x8005 else c.reg <<< 1
    data := c.data <<< 1
    cnt := c.cnt + 1
    phase := if c.cnt + 1 = 8 then .load else .bit } := by
  simp only [CrcUnit.bitStep, crcFeedback_iff, hp]

/-! ## When the primitives and the composites answer (R120 to R124) -/

section
variable {s : State}

theorem onCrc_eq_refused {m : String} {p : CPhase} {c : CrcUnit} (h : ¬(CrcTurn s ∧ s.crc.phase = p)) :
    onCrc m p s c = .refused (.notEnabled m) := by
  have hguard : (crcTurn s && s.crc.phase == p) = false := by
    rwa [← Bool.not_eq_true, Bool.and_eq_true, beq_iff_eq, crcTurn_iff]
  rw [onCrc, hguard, enabledIf_false]

theorem execCrcBit_eq (hc : s.crc.cnt < 8) : execCrcBit s = onCrc "CRC.BIT" .bit s s.crc.bitStep := by
  rw [execCrcBit, decide_eq_true hc, enabledIf_true]

theorem execCrcBit_eq_refused (h : ¬(CrcTurn s ∧ s.crc.phase = .bit ∧ s.crc.cnt < 8)) :
    execCrcBit s = .refused (.notEnabled "CRC.BIT") := by
  by_cases hc : s.crc.cnt < 8
  · rw [execCrcBit_eq hc]
    exact onCrc_eq_refused fun ⟨ht, hp⟩ => h ⟨ht, hp, hc⟩
  · rw [execCrcBit, decide_eq_false hc, enabledIf_false]

theorem exec_crc16 (ht : CrcTurn s) (hp : s.crc.phase = .idle) (bs : List Byte) :
    exec (.crc16 bs) s = .next (s.setCrc (s.crc.run bs)) := onCrc_eq_next.mpr ⟨ht, hp, rfl⟩

end

theorem crcDataWord_eq_append (b : Byte) : crcDataWord b = b ++ (0 : Byte) := by
  rw [crcDataWord, BitVec.append_def, BitVec.shiftLeftZeroExtend_eq]
  simp

/-- Settles O2, by the guard the three operations share and the register equation of CRC.BIT. -/
theorem crcPrimitives : Obligations.CrcPrimitives := by
  refine ⟨fun _ => onCrc_eq_refused, fun _ _ => onCrc_eq_refused, fun _ => execCrcBit_eq_refused, fun s ht => ⟨?_, ?_, ?_⟩⟩
  · exact fun hp => onCrc_eq_next.mpr ⟨ht, hp, rfl⟩
  · intro b hp
    rw [← crcDataWord_eq_append]
    exact onCrc_eq_next.mpr ⟨ht, hp, rfl⟩
  · intro hp hc
    rw [← CrcUnit.bitStep_eq hp]
    exact (execCrcBit_eq hc).trans (onCrc_eq_next.mpr ⟨ht, hp, rfl⟩)

/-! ## What CRC.BYTE and CRC16 leave in the unit (R123, R124) -/

/-- Two bytes' shifts push the whole word out. -/
theorem shiftLeft_eight_eight (w : Word16) : w <<< 8 <<< 8 = 0 := by
  rw [← BitVec.shiftLeft_add]
  exact BitVec.shiftLeft_eq_zero le_rfl

theorem CrcUnit.bitSteps_data (n : Nat) (c : CrcUnit) : (CrcUnit.bitSteps n c).data = c.data <<< n := by
  induction n generalizing c with
  | zero => exact (BitVec.shiftLeft_zero c.data).symm
  | succ n ih =>
    calc (CrcUnit.bitSteps n c.bitStep).data = c.data <<< 1 <<< n := ih c.bitStep
      _ = c.data <<< (n + 1) := by rw [← BitVec.shiftLeft_add, Nat.add_comm]

/-- The eight shifts push the byte out of `crc_data`. -/
theorem CrcUnit.byteStep_data (c : CrcUnit) (b : Byte) : (c.byteStep b).data = 0 :=
  (CrcUnit.bitSteps_data 8 (c.loadByte b)).trans (shiftLeft_eight_eight (b.setWidth 16))

theorem CrcUnit.byteStep_eq (c : CrcUnit) (b : Byte) :
    c.byteStep b = { reg := crcByte c.reg b, data := 0, cnt := 8, phase := .load } := by
  rw [← CrcUnit.byteStep_reg, ← CrcUnit.byteStep_data c b]
  rfl

/-- CRC16 leaves `crc_data` and `crc_cnt` as its last CRC.BYTE does, or untouched when it takes none. -/
theorem CrcUnit.run_eq (c : CrcUnit) (bs : List Byte) : c.run bs = {
    reg := crc16 bs
    data := if bs = [] then c.data else 0
    cnt := if bs = [] then c.cnt else 8
    phase := .idle } := by
  rw [← CrcUnit.run_reg c]
  rcases List.eq_nil_or_concat bs with rfl | ⟨bs, b, rfl⟩
  · rfl
  · simp [CrcUnit.run, CrcUnit.byteStep_eq, CrcUnit.returned]

/-- Settles O3, by the closed forms of the two composites on the unit. -/
theorem crcCompositesFollowTheirClosedForms : Obligations.CrcCompositesFollowTheirClosedForms := by
  refine ⟨fun s b ht hp => ?_, fun s bs ht hp => ?_⟩
  · rw [← CrcUnit.byteStep_eq]
    exact onCrc_eq_next.mpr ⟨ht, hp, rfl⟩
  · rw [← CrcUnit.run_eq]
    exact exec_crc16 ht hp bs

/-! ## The residue law (R126) -/

/-- Where the `n` bits fed next are the register's own from bit 15 down, no iteration finds feedback: the register is only
shifted. -/
theorem crcIterate_of_own_bits (n : Nat) (r d : Word16) (h : ∀ i < n, r.getMsbD i = d.getMsbD i) :
    crcIterate n r d = r <<< n := by
  induction n generalizing r d with
  | zero => exact (BitVec.shiftLeft_zero r).symm
  | succ n ih =>
    have hfeedback : ¬((r ^^^ d) &&& 0x8000 ≠ 0) := fun hne => (crcFeedback_iff r d).mp hne (h 0 n.succ_pos)
    have hshifted : ∀ i < n, (r <<< 1).getMsbD i = (d <<< 1).getMsbD i := fun i hlt => by
      simpa only [BitVec.getMsbD_shiftLeft] using h (i + 1) (Nat.succ_lt_succ hlt)
    rw [crcIterate, if_neg hfeedback, ih _ _ hshifted, ← BitVec.shiftLeft_add, Nat.add_comm]

/-- A byte that repeats the register's high half shifts that half out. -/
theorem crcByte_hi (r : Word16) : crcByte r (hi r) = r <<< 8 := by
  refine crcIterate_of_own_bits 8 r _ fun i hlt => ?_
  have hindex : 16 - (16 - i) = i := by omega
  simp [crcDataWord, hi, BitVec.getMsbD_extractLsb', hlt, hindex]

theorem hi_shiftLeft_eight (r : Word16) : hi (r <<< 8) = lo r := by
  refine BitVec.eq_of_getLsbD_eq fun i hlt => ?_
  have hin : i < 16 ∧ 8 + i < 16 := by omega
  simp [hi, lo, hin]

theorem crcFrom_own_bytes (r : Word16) : crcFrom r [hi r, lo r] = 0 := by
  calc crcByte (crcByte r (hi r)) (lo r) = r <<< 8 <<< 8 := by
        rw [crcByte_hi, ← hi_shiftLeft_eight, crcByte_hi]
    _ = 0 := shiftLeft_eight_eight r

theorem crc16_append_checksum (p : List Byte) : crc16 (p ++ [hi (crc16 p), lo (crc16 p)]) = 0 :=
  List.foldl_append.trans (crcFrom_own_bytes (crc16 p))

/-- Settles O4, by the register that its own bits only shift. -/
theorem crcResidueIsZero : Obligations.CrcResidueIsZero := fun s p ht hp =>
  ⟨_, exec_crc16 ht hp _, (CrcUnit.run_reg s.crc _).trans (crc16_append_checksum p)⟩

/-! ## The sync-bit law (R127) -/

/-- One iteration of the closed loop fed the bit `v` (R125). -/
def crcFeed (r : Word16) (v : Bool) : Word16 := crcIterate 1 r (if v then 0x8000 else 0)

/-- The bit fed to one iteration of the closed loop stands in bit 15 of `data`; the rest of `data` is not read. -/
theorem crcIterate_one_congr (r : Word16) {d d' : Word16} (h : d.getLsbD 15 = d'.getLsbD 15) :
    crcIterate 1 r d = crcIterate 1 r d' := by
  simp only [crcIterate, crcFeedback_iff, h]

theorem crcIterate_one_eq_crcFeed (r d : Word16) : crcIterate 1 r d = crcFeed r (d.getMsbD 0) := by
  refine crcIterate_one_congr r ?_
  change d.getMsbD 0 = _
  cases d.getMsbD 0 <;> rfl

/-- `n` iterations feed the first `n` bits of `data` from bit 15 down (R125). -/
theorem crcIterate_eq_foldl (n : Nat) (r d : Word16) :
    crcIterate n r d = ((List.range n).map d.getMsbD).foldl crcFeed r := by
  induction n generalizing r d with
  | zero => rfl
  | succ n ih =>
    have hrest : (d <<< 1).getMsbD = d.getMsbD ∘ Nat.succ := funext fun i => BitVec.getMsbD_shiftLeft d 1
    calc crcIterate n (crcIterate 1 r d) (d <<< 1)
        = ((List.range n).map (d.getMsbD ∘ Nat.succ)).foldl crcFeed (crcFeed r (d.getMsbD 0)) := by
          rw [ih, hrest, crcIterate_one_eq_crcFeed]
      _ = ((List.range (n + 1)).map d.getMsbD).foldl crcFeed r := by
          rw [List.range_succ_eq_map, List.map_cons, List.map_map, List.foldl_cons]

/-- CRC.BYTE feeds the bits of its byte, most significant first (R123, R125). -/
theorem crcByte_eq_foldl (r : Word16) (b : Byte) : crcByte r b = (bitsMsbFirst b).foldl crcFeed r := by
  have hbits : (List.range 8).map (crcDataWord b).getMsbD = bitsMsbFirst b := by
    simp [List.range_succ, bitsMsbFirst, crcDataWord, BitVec.getMsbD_eq_getLsbD]
  rw [crcByte, crcIterate_eq_foldl, hbits]

theorem crcFrom_eq_foldl (r : Word16) (bs : List Byte) : crcFrom r bs = (bs.flatMap bitsMsbFirst).foldl crcFeed r := by
  rw [List.foldl_flatMap, crcFrom, funext₂ crcByte_eq_foldl]

/-- Settles O5: the leading 1 takes the register from zero to 0x8005, and the bits of the bytes follow. -/
theorem crcInitialValueIsASyncBit : Obligations.CrcInitialValueIsASyncBit := fun p => by
  have hsync : (0x8005 : Word16) = crcFeed 0 true := by decide
  rw [crc16, crcFrom_eq_foldl, hsync]
  rfl

end Sys2Proof.Machine
end

section
/-! PROOFS. The decoder's operations as equations (O6, O8, O9, O11 to O15 and the step of O10): what each answers where its
phase, its guard and what it reads hold (R141 to R159). -/

namespace Sys2Proof.Machine

section
variable {s : State}

/-- The decoder's guard where its phase holds (R141; log entry 7). -/
theorem decodingAt_of {p : DPhase} (hin : s.hphase = .rxDecode) (hp : s.dec.phase = p) : decodingAt p s = true :=
  decodingAt_iff.mpr ⟨hin, hp⟩

/-- Settles O6: the guard of DEC.START holds. -/
theorem decodeStarts : Obligations.DecodeStarts := fun _ hin hp hfresh =>
  execDecStart_eq_next.mpr ⟨hin, hp, hfresh, rfl⟩

/-! ## Step 1: classify (R142 to R147) -/

theorem widthNs_eq_ofNat (raw : Byte) : widthNs raw = BitVec.ofNat 9 (2 * raw.toNat) := by
  rw [← widthNs_toNat, BitVec.ofNat_toNat, BitVec.setWidth_eq]

theorem classify_short {raw : Byte} (h : raw.toNat ≤ 59) : classify raw = .short := by
  rw [classify_eq_ite, if_pos (by omega)]

theorem classify_single {raw : Byte} (hlo : 60 ≤ raw.toNat) (hhi : raw.toNat ≤ 114) : classify raw = .single := by
  rw [classify_eq_ite, if_neg (by omega), if_pos (by omega)]

theorem classify_ambig {raw : Byte} (hlo : 115 ≤ raw.toNat) (hhi : raw.toNat ≤ 139) : classify raw = .ambig := by
  rw [classify_eq_ite, if_neg (by omega), if_neg (by omega), if_pos (by omega)]

theorem classify_double {raw : Byte} (hlo : 140 ≤ raw.toNat) (hhi : raw.toNat ≤ 199) : classify raw = .double := by
  rw [classify_eq_ite, if_neg (by omega), if_neg (by omega), if_neg (by omega), if_pos (by omega)]

theorem classify_long {raw : Byte} (h : 200 ≤ raw.toNat) : classify raw = .long := by
  rw [classify_eq_ite, if_neg (by omega), if_neg (by omega), if_neg (by omega), if_neg (by omega)]

/-- The sample `raw` is the next to be classified (R142). -/
structure AtSample (s : State) (raw : Byte) : Prop where
  inside : s.hphase = .rxDecode
  phase : s.dec.phase = .classify
  remains : s.dec.k < s.rxLen
  sample : loadSample s = .ok raw

/-- What the five sample operations share goes on to the operation's own effect (R142). -/
theorem AtSample.onSample_eq {raw : Byte} {c : SampleClass} (h : AtSample s raw) (hc : classify raw = c) (m : String)
    (f : State → Out) :
    onSample m c raw s f = f (s.setDec { s.dec with widthNs := BitVec.ofNat 9 (2 * raw.toNat) }) := by
  have hguard : classifying s = true := by
    rw [classifying, decodingAt_of h.inside h.phase, decide_eq_true h.remains, Bool.and_self]
  rw [onSample, hguard, enabledIf_true, h.sample, reading_ok, hc, beq_self_eq_true, beq_self_eq_true, Bool.and_self,
    enabledIf_true, widthNs_eq_ofNat]

/-- DEC.SHORT, DEC.AMBIG and DEC.LONG on a sample of their class. -/
theorem AtSample.onSample_raise {raw : Byte} {c : SampleClass} (h : AtSample s raw) (hc : classify raw = c) (m : String)
    (e : DecError) : onSample m c raw s (fun t => .next (t.raiseDec e)) =
      .next ((s.setDec { s.dec with widthNs := BitVec.ofNat 9 (2 * raw.toNat) }).raiseDec e) :=
  h.onSample_eq hc m _

/-- What a legal sample leaves: the level toggled and appended `n` times (R142, R144, R146). -/
def State.levelAppended (s : State) (raw : Byte) (n : Nat) : State := s.setDec { s.dec with
  widthNs := BitVec.ofNat 9 (2 * raw.toNat), level := !s.dec.level
  levels := Memory.writeAll s.dec.levels s.dec.lLen (List.replicate n (!s.dec.level)), lLen := s.dec.lLen + n
  k := s.dec.k + 1, phase := if s.dec.k + 1 = s.rxLen then .parity else .classify }

/-- DEC.SINGLE and DEC.DOUBLE on a sample of their class, with room in `L`. -/
theorem AtSample.onSample_append {raw : Byte} {c : SampleClass} {n : Nat} (h : AtSample s raw) (hc : classify raw = c)
    (hroom : s.dec.lLen + n ≤ s.cfg.lCap) (m : String) :
    onSample m c raw s (toggleAppend n) = .next (s.levelAppended raw n) :=
  (h.onSample_eq hc m _).trans (toggleAppend_eq_next.mpr ⟨hroom, rfl⟩)

/-- Settles O8: the sample's class is the operation's, and its effect is to raise. -/
theorem illegalSamplesRaise : Obligations.IllegalSamplesRaise := by
  intro s raw hin hp hk hcap hread
  have h : AtSample s raw := ⟨hin, hp, hk, loadCell_eq_ok.mpr ⟨hcap, hread⟩⟩
  exact ⟨fun hhi => h.onSample_raise (classify_short hhi) _ _,
    fun hlo hhi => h.onSample_raise (classify_ambig hlo hhi) _ _, fun hlo => h.onSample_raise (classify_long hlo) _ _⟩

theorem Memory.stored_writeAll {α : Type} (m : Memory α) (a : Nat) (xs : List α) :
    Memory.stored m (Memory.writeAll m a xs) a xs := Memory.read_writeAll xs m a

/-- Settles O9: the sample's class is the operation's, and the toggled level has room. -/
theorem legalSamplesAppendLevels : Obligations.LegalSamplesAppendLevels := by
  intro s raw hin hp hk hcap hread
  have h : AtSample s raw := ⟨hin, hp, hk, loadCell_eq_ok.mpr ⟨hcap, hread⟩⟩
  exact ⟨fun hlo hhi hroom => ⟨_, Memory.stored_writeAll _ _ _, h.onSample_append (classify_single hlo hhi) hroom _⟩,
    fun hlo hhi hroom => ⟨_, Memory.stored_writeAll _ _ _, h.onSample_append (classify_double hlo hhi) hroom _⟩⟩

/-! ## Step 2: end-of-stream compensation (R149) -/

/-- `next_pair_phase()` in one test (R155). -/
theorem nextPairPhase_eq (d : Decoder) :
    nextPairPhase d = if d.nbits = 8 ∨ d.i + 1 < d.lLen then .pair else .align := by
  rw [nextPairPhase, ite_or]

/-- The decoder with the synthetic LevelBit appended (R149). -/
def Decoder.restored (d : Decoder) : Decoder :=
  { d with levels := Memory.writeAll d.levels d.lLen [true], lLen := d.lLen + 1, comp := true }

theorem execDecParity_of_even (hin : s.hphase = .rxDecode) (hp : s.dec.phase = .parity) (heven : s.dec.lLen % 2 = 0)
    (hroom : s.dec.lLen + 1 ≤ s.cfg.lCap) :
    execDecParity s = .next (s.setDec { s.dec.restored with phase := nextPairPhase s.dec.restored }) := by
  have hneed : compNeeded s.dec.lLen = true := beq_iff_eq.mpr heven
  rw [execDecParity, decodingAt_of hin hp, enabledIf_true, if_pos hneed, storeSpan_of_fits hroom, reading_ok]
  rfl

theorem execDecParity_of_odd (hin : s.hphase = .rxDecode) (hp : s.dec.phase = .parity) (hodd : s.dec.lLen % 2 = 1) :
    execDecParity s = .next (s.setDec { s.dec with phase := nextPairPhase s.dec }) := by
  have hneed : ¬compNeeded s.dec.lLen = true := by simp [compNeeded, hodd]
  rw [execDecParity, decodingAt_of hin hp, enabledIf_true, if_neg hneed]

/-! ## Step 3: pairs into bits and bytes (R150 to R154) -/

/-- `(a, b)` is the next pair to be consumed (R155). -/
structure AtPair (s : State) (a b : Bool) : Prop where
  inside : s.hphase = .rxDecode
  phase : s.dec.phase = .pair
  nbits : s.dec.nbits < 8
  remains : s.dec.i + 1 < s.dec.lLen
  pair : loadPair s = .ok (a, b)

/-- What a pair leaves: its bit in `acc`, or a fault logged, counted and decoded as 0 (R150 to R152). -/
def State.pairTaken (s : State) (a b : Bool) : State :=
  if a = b then pairFault a s else s.setDec (acceptBit a s.dec)

/-- The operation that the pattern selects takes the pair, whichever it is (R94). -/
theorem AtPair.exec_pairOp {a b : Bool} (h : AtPair s a b) : exec (pairOp a b) s = .next (s.pairTaken a b) := by
  have taken (m : String) (o : State) : onPair m a b s (.next o) = .next o :=
    onPair_eq_next.mpr ⟨h.inside, h.phase, h.nbits, h.remains, h.pair, rfl⟩
  match a, b with
  | true, false | false, true | false, false | true, true => exact taken _ _

theorem acceptBit_eq (bit : Bool) (d : Decoder) : acceptBit bit d = { d with
    acc := (d.acc <<< 1) ||| (if bit then 1 else 0), nbits := d.nbits + 1, i := d.i + 2
    phase := if d.nbits + 1 = 8 ∨ d.i + 3 < d.lLen then .pair else .align } := by
  simp only [acceptBit, nextPairPhase_eq, shiftIn]

theorem acceptBit_false_eq (d : Decoder) : acceptBit false d = { d with
    acc := d.acc <<< 1, nbits := d.nbits + 1, i := d.i + 2
    phase := if d.nbits + 1 = 8 ∨ d.i + 3 < d.lLen then .pair else .align } := by
  simp [acceptBit_eq]

/-- Settles O11: the pattern selects the operation, and the operation takes the pair. -/
theorem pairsBecomeBits : Obligations.PairsBecomeBits := by
  intro s a b hin hp hn hi hcap ha hb
  have hpair : loadPair s = .ok (a, b) :=
    loadPair_eq_ok.mpr ⟨loadCell_eq_ok.mpr ⟨by omega, ha⟩, loadCell_eq_ok.mpr ⟨by omega, hb⟩⟩
  have h := AtPair.exec_pairOp ⟨hin, hp, hn, hi, hpair⟩
  refine ⟨?_, ?_, ?_⟩
  · rintro rfl rfl
    exact h.trans (by rw [State.pairTaken, if_neg (by decide), acceptBit_eq]; rfl)
  · rintro rfl rfl
    exact h.trans (by rw [State.pairTaken, if_neg (by decide), acceptBit_false_eq]; rfl)
  · rintro rfl
    rw [pairOp_eq_ite, if_pos rfl, State.pairTaken, if_pos rfl, pairFault, acceptBit_false_eq] at h
    exact h

theorem execDecByte_eq (hin : s.hphase = .rxDecode) (hp : s.dec.phase = .pair) (hn : s.dec.nbits = 8)
    (hroom : s.dec.outLen < s.cfg.maxFrameBytes) : execDecByte s = .next (s.setDec { s.dec with
      out := Memory.writeAll s.dec.out s.dec.outLen [s.dec.acc], outLen := s.dec.outLen + 1, acc := 0, nbits := 0
      phase := if s.dec.i + 1 < s.dec.lLen then .pair else .align }) := by
  rw [execDecByte, decodingAt_of hin hp, hn, decide_eq_true hroom, beq_self_eq_true, Bool.and_self, Bool.and_self,
    enabledIf_true, storeSpan_of_fits hroom, reading_ok]
  simp [nextPairPhase_eq]

/-- Settles O12: the byte has room in `out`. -/
theorem eighthBitClosesAByte : Obligations.EighthBitClosesAByte := fun _ hin hp hn hroom =>
  ⟨_, Memory.stored_writeAll _ _ _, execDecByte_eq hin hp hn hroom⟩

theorem execDecOvf_eq (hin : s.hphase = .rxDecode) (hp : s.dec.phase = .pair) (hn : s.dec.nbits = 8)
    (hfull : s.dec.outLen = s.cfg.maxFrameBytes) :
    execDecOvf s = .next (s.raiseDec (.overflow s.dec.outLen)) := by
  rw [execDecOvf, decodingAt_of hin hp, beq_iff_eq.mpr hn, beq_iff_eq.mpr hfull, Bool.and_self, Bool.and_self,
    enabledIf_true]

/-! ## Steps 4 and 5: alignment and checksum (R156 to R159) -/

theorem execDecAlign_eq (hin : s.hphase = .rxDecode) (hp : s.dec.phase = .align) :
    execDecAlign s = .next (if s.dec.i % 16 = 1 then s.setDec { s.dec with phase := .check }
      else s.raiseDec (.misaligned s.dec.i)) := by
  rw [execDecAlign, decodingAt_of hin hp, enabledIf_true, aligned]
  simp only [beq_iff_eq]
  split_ifs <;> rfl

theorem execDecRunt_eq (hin : s.hphase = .rxDecode) (hp : s.dec.phase = .check) (hshort : s.dec.outLen < 2) :
    execDecRunt s = .next (s.raiseDec (.frameTooShort s.dec.outLen)) := by
  rw [execDecRunt, decodingAt_of hin hp, decide_eq_true hshort, Bool.and_self, enabledIf_true]

/-- Settles O13: each guard holds, and DEC.ALIGN's test decides. -/
theorem overflowAlignmentAndLength : Obligations.OverflowAlignmentAndLength := by
  intro s hin
  refine ⟨execDecOvf_eq hin, fun hp ha => ?_, fun hp ha => ?_, execDecRunt_eq hin⟩
  · exact (execDecAlign_eq hin hp).trans (by rw [if_pos ha]; rfl)
  · exact (execDecAlign_eq hin hp).trans (by rw [if_neg ha]; rfl)

/-- DEC.CHECK on the output bytes `bs`: the unit's checksum is the closed form's (R124, R158). -/
theorem execDecCheck_eq {bs : List Byte} (hin : s.hphase = .rxDecode) (hp : s.dec.phase = .check)
    (hfree : s.crc.phase = .idle) (hlong : 2 ≤ s.dec.outLen) (hout : loadOut s = .ok bs) :
    execDecCheck s = .next
      (if crc16 (bs.take (bs.length - 2)) = transmittedCrc bs then
        (s.setCrc (s.crc.run (bs.take (bs.length - 2)))).setDec { s.dec with phase := .done }
      else (s.setCrc (s.crc.run (bs.take (bs.length - 2)))).raiseDec
        (.crcMismatch (crc16 (bs.take (bs.length - 2))) (transmittedCrc bs))) := by
  rw [execDecCheck, decodingAt_of hin hp, decide_eq_true hlong, crcFree_iff.mpr hfree, Bool.and_self, Bool.and_self,
    enabledIf_true, hout, reading_ok]
  simp only [CrcUnit.run_reg]
  split_ifs <;> rfl

theorem execDecDone_eq {bs : List Byte} (hin : s.hphase = .rxDecode) (hp : s.dec.phase = .done)
    (hout : loadOut s = .ok bs) :
    execDecDone s = .next (s.setDec { s.dec with
      result := .frame bs s.dec.pairFaults s.dec.comp, phase := .idle }) := by
  rw [execDecDone, decodingAt_of hin hp, enabledIf_true, hout, reading_ok]

theorem loadOut_of_holds {bs : List Byte} (hlen : s.dec.outLen = bs.length) (hcap : s.dec.outLen ≤ s.cfg.maxFrameBytes)
    (hout : Memory.holds s.dec.out bs) : loadOut s = .ok bs := by
  rw [loadOut, hlen]
  exact loadSpan_of_holds hout (hlen ▸ hcap)

theorem beWord_eq_append (h l : Byte) : beWord h l = h ++ l := by
  rw [beWord, BitVec.append_def, BitVec.shiftLeftZeroExtend_eq]
  rfl

/-- Settles O14: the bytes before the last two are `p`, and the last two are the word `h ++ l`. -/
theorem checksumDecides : Obligations.ChecksumDecides := by
  intro s p h l hin hp hfree hlen hcap hout
  have hload : loadOut s = .ok (p ++ [h, l]) := loadOut_of_holds (by simpa using hlen) hcap hout
  have hcheck := execDecCheck_eq hin hp hfree (by omega) hload
  have hpayload : (p ++ [h, l]).take ((p ++ [h, l]).length - 2) = p := by simp
  rw [hpayload, transmittedCrc_append, beWord_eq_append] at hcheck
  refine ⟨s.crc.run p, CrcUnit.run_reg _ _, rfl, fun heq => ?_, fun hne => ?_⟩
  · exact hcheck.trans (by rw [if_pos heq]; rfl)
  · exact hcheck.trans (by rw [if_neg hne]; rfl)

/-- Settles O15: `out` holds the bytes. -/
theorem doneReturnsTheWholeFrame : Obligations.DoneReturnsTheWholeFrame := fun _ _ hin hp hlen hcap hout =>
  execDecDone_eq hin hp (loadOut_of_holds hlen hcap hout)

end

end Sys2Proof.Machine
end

section
/-! PROOFS. The closed form's steps 2 to 5 in the decoder's registers (O10; R149 to R160): what is left of a decode is stated
without its fuel, and each iteration of the closed form is followed through the registers that hold its variables. -/

namespace Sys2Proof.Machine

/-! ## The closed form by its steps (R149, R156 to R161) -/

/-- Step 5 of the closed form (R157 to R159). -/
def checkedFrame (bs : List Byte) (faults : Nat) (comp : Bool) : DecResult :=
  if bs.length < 2 then .error (.frameTooShort bs.length)
  else if crc16 (bs.take (bs.length - 2)) ≠ transmittedCrc bs then
    .error (.crcMismatch (crc16 (bs.take (bs.length - 2))) (transmittedCrc bs))
  else .frame bs faults comp

theorem closedVerdict_eq (p : PairLoop) (comp : Bool) :
    closedVerdict p comp = if p.overflow then .error (.overflow p.out.length)
      else if p.i % 16 ≠ 1 then .error (.misaligned p.i) else checkedFrame p.out p.faults comp := rfl

/-- The flag `comp` is reported with a frame, and it decides nothing else. -/
theorem closedVerdict_cases (p : PairLoop) :
    (∃ e, ∀ c, closedVerdict p c = .error e) ∨ ∃ f n, ∀ c, closedVerdict p c = .frame f n c := by
  simp only [closedVerdict_eq, checkedFrame]
  split_ifs <;> simp

/-- Steps 3 to 5 of the closed form on the LevelBits `l` still to be paired, from the variables `p` of step 3. -/
def closedFromPairs (cap : Nat) (comp : Bool) (l : List Bool) (p : PairLoop) : DecResult × List Event :=
  (closedVerdict (closedPairs cap l p) comp, (closedPairs cap l p).events)

theorem closedFromPairs_cons_cons (cap : Nat) (comp a b : Bool) (l : List Bool) (p : PairLoop) :
    closedFromPairs cap comp (a :: b :: l) p =
      if (p.consume cap a b).overflow then (closedVerdict (p.consume cap a b) comp, (p.consume cap a b).events)
      else closedFromPairs cap comp l (p.consume cap a b) := by
  rw [closedFromPairs, closedPairs]
  split_ifs <;> rfl

theorem closedFromLevels_of_even (cap : Nat) {l : List Bool} (h : l.length % 2 = 0) :
    closedFromLevels cap l = closedFromPairs cap true ((l ++ [true]).drop 1) .start := by
  simp [closedFromLevels, closedFromPairs, h]

theorem closedFromLevels_of_odd (cap : Nat) {l : List Bool} (h : l.length % 2 = 1) :
    closedFromLevels cap l = closedFromPairs cap false (l.drop 1) .start := by
  simp [closedFromLevels, closedFromPairs, h]

/-- Settles O10: DEC.PARITY by the parity of `l_len`; and a LevelSequence of even length and the same with a 1 appended
give step 3 the same pairs. -/
theorem parityIsRestored : Obligations.ParityIsRestored := by
  refine ⟨fun s hin hp => ⟨fun heven hroom => ⟨_, Memory.stored_writeAll _ _ _, ?_⟩, fun hodd => ?_⟩, fun n l heven => ?_⟩
  · exact (execDecParity_of_even hin hp heven hroom).trans (by rw [nextPairPhase_eq]; rfl)
  · exact (execDecParity_of_odd hin hp hodd).trans (by rw [nextPairPhase_eq]; rfl)
  · have hodd : (l ++ [true]).length % 2 = 1 := by rw [List.length_append, List.length_singleton]; omega
    rw [closedFromLevels_of_even n heven, closedFromLevels_of_odd n hodd]
    simp only [closedFromPairs]
    obtain ⟨e, he⟩ | ⟨f, k, hf⟩ := closedVerdict_cases (closedPairs n ((l ++ [true]).drop 1) .start)
    · simp only [he]; simp
    · simp only [hf]; simp

/-! ## A decode under way, without its fuel -/

/-- From `s` on the decode ends with the result `o.1` and the events `o.2` behind the log `log₀`, whatever fuel covers its
rank. -/
def DecodesTo (log₀ : List Event) (s : State) (o : DecResult × List Event) : Prop :=
  ∀ n, decRank s.rxLen s.dec ≤ n → ∃ t, decLoop n s = .next t ∧ t.dec.result = o.1 ∧ t.log = log₀ ++ o.2

section
variable {log₀ ev : List Event} {s u : State} {o : DecResult × List Event} {i : Instr}

theorem DecodesTo.ended (hp : s.dec.phase = .idle) (hlog : s.log = log₀ ++ ev) : DecodesTo log₀ s (s.dec.result, ev) := by
  intro n _
  refine ⟨s, ?_, rfl, hlog⟩
  cases n with
  | zero => rfl
  | succ n => rw [decLoop, if_pos hp]

/-- The selected operation is taken, and its step lowers the rank. -/
theorem DecodesTo.step (hp : s.dec.phase ≠ .idle) (hop : decOp s = .ok i) (hi : exec i s = .next u)
    (h : DecodesTo log₀ u o) : DecodesTo log₀ s o := by
  have hstep : decStep s = .next u := (decStep_eq_exec hp hop).trans hi
  obtain ⟨hframe, hrank⟩ := decStep_step hp hstep
  intro n hn
  obtain ⟨n, rfl⟩ : ∃ k, n = k + 1 := Nat.exists_eq_add_one.mpr (by omega)
  obtain ⟨t, ht, hr⟩ := h n (by rw [hframe.rxLen]; omega)
  refine ⟨t, ?_, hr⟩
  rwa [decLoop, if_neg hp, hstep, Out.andThen_next]

/-- The selected operation raises (R148). -/
theorem DecodesTo.raise {e : DecError} (hp : s.dec.phase ≠ .idle) (hop : decOp s = .ok i)
    (hi : exec i s = .next (u.raiseDec e)) (hlog : u.log = log₀ ++ ev) : DecodesTo log₀ s (.error e, ev) :=
  .step hp hop hi (.ended rfl hlog)

end

/-! ## The registers of step 3 -/

/-- The decoder's registers and buffers hold the LevelSequence `l`, the flag `comp` and the variables `p` of the closed
form's step 3, with `log₀` the log before the decode and `cap` the largest frame; the CRC unit is free. -/
structure Mirrors (cap : Nat) (log₀ : List Event) (l : List Bool) (comp : Bool) (p : PairLoop) (s : State) : Prop where
  inside : s.hphase = .rxDecode
  free : s.crc.phase = .idle
  capacity : s.cfg.maxFrameBytes = cap
  levels : s.dec.lLen = l.length ∧ l.length ≤ s.cfg.lCap ∧ Memory.holds s.dec.levels l
  comp : s.dec.comp = comp
  vars : s.dec.i = p.i ∧ s.dec.acc = p.acc ∧ s.dec.nbits = p.nbits ∧ s.dec.pairFaults = p.faults
  bytes : s.dec.outLen = p.out.length ∧ p.out.length ≤ cap ∧ Memory.holds s.dec.out p.out
  log : s.log = log₀ ++ p.events

theorem Memory.holds_append {α : Type} {m : Memory α} {xs : List α} (h : Memory.holds m xs) (ys : List α) :
    Memory.holds (Memory.writeAll m xs.length ys) (xs ++ ys) := by
  intro j hj
  rw [List.length_append] at hj
  rw [Memory.read_writeAll]
  split_ifs with hin
  · rw [List.getElem?_append_right hin.1]
  · have hlt : j < xs.length := by omega
    rw [h j hlt, List.getElem?_append_left hlt]

theorem length_of_drop_eq_cons {α : Type} {l rest : List α} {i : Nat} {a : α} (h : l.drop i = a :: rest) :
    l.length = i + rest.length + 1 := by
  have hlen := congrArg List.length h
  rw [List.length_drop, List.length_cons] at hlen
  omega

namespace Mirrors
variable {cap : Nat} {log₀ : List Event} {l rest : List Bool} {c a b : Bool} {p : PairLoop} {s : State}
  {o : DecResult × List Event}

theorem setPhase (h : Mirrors cap log₀ l c p s) (x : DPhase) : Mirrors cap log₀ l c p (s.setDec { s.dec with phase := x }) :=
  { h with }

/-- LevelBits appended at `l_len`, while step 3 stands still (R144, R146, R149). -/
theorem append (h : Mirrors cap log₀ l c p s) (ys : List Bool) {d : Decoder}
    (hl : d.levels = Memory.writeAll s.dec.levels s.dec.lLen ys) (hlen : d.lLen = s.dec.lLen + ys.length)
    (hroom : s.dec.lLen + ys.length ≤ s.cfg.lCap)
    (hd : (d.i, d.acc, d.nbits, d.pairFaults, d.outLen, d.out) =
      (s.dec.i, s.dec.acc, s.dec.nbits, s.dec.pairFaults, s.dec.outLen, s.dec.out)) :
    Mirrors cap log₀ (l ++ ys) d.comp p (s.setDec d) := by
  obtain ⟨hin, hfree, hcap, ⟨hll, -, hheld⟩, -, hvars, hbytes, hlog⟩ := h
  simp only [Prod.mk.injEq] at hd
  obtain ⟨hi, ha, hn, hf, ho, hout⟩ := hd
  refine ⟨hin, hfree, hcap, ⟨?_, ?_, ?_⟩, rfl, ?_, ?_, hlog⟩
  · rw [State.setDec_dec, hlen, hll, List.length_append]
  · rw [List.length_append, ← hll]; exact hroom
  · rw [State.setDec_dec, hl, hll]; exact Memory.holds_append hheld ys
  · rw [State.setDec_dec, hi, ha, hn, hf]; exact hvars
  · rw [State.setDec_dec, ho, hout]; exact hbytes

/-! ## Steps 4 and 5 (R156 to R159) -/

theorem loadOut_eq (h : Mirrors cap log₀ l c p s) : loadOut s = .ok p.out := by
  obtain ⟨hlen, hfits, hheld⟩ := h.bytes
  exact loadOut_of_holds hlen (by rw [hlen, h.capacity]; exact hfits) hheld

theorem decodesTo_done (h : Mirrors cap log₀ l c p s) (hp : s.dec.phase = .done) :
    DecodesTo log₀ s (.frame p.out p.faults c, p.events) := by
  obtain ⟨-, -, -, hfaults⟩ := h.vars
  have hop : decOp s = .ok .decDone := by simp only [decOp, hp]
  rw [← hfaults, ← h.comp]
  exact .step (by simp [hp]) hop (execDecDone_eq h.inside hp h.loadOut_eq) (.ended rfl h.log)

/-- DEC.RUNT, or DEC.CHECK and DEC.DONE. -/
theorem decodesTo_checked (h : Mirrors cap log₀ l c p s) (hp : s.dec.phase = .check) :
    DecodesTo log₀ s (checkedFrame p.out p.faults c, p.events) := by
  obtain ⟨hlen, -⟩ := h.bytes
  have hbusy : s.dec.phase ≠ .idle := by simp [hp]
  unfold checkedFrame
  split_ifs with hshort hcrc
  · have hop : decOp s = .ok .decRunt := by simp only [decOp, hp, hlen, if_pos hshort]
    rw [← hlen] at hshort ⊢
    exact .raise hbusy hop (execDecRunt_eq h.inside hp hshort) h.log
  all_goals
    have hop : decOp s = .ok .decCheck := by simp only [decOp, hp, hlen, if_neg hshort]
    have hcheck := execDecCheck_eq h.inside hp h.free (by omega) h.loadOut_eq
  · rw [if_neg hcrc] at hcheck
    exact .raise hbusy hop hcheck h.log
  · rw [if_pos (not_not.mp hcrc)] at hcheck
    exact .step hbusy hop hcheck (decodesTo_done { h with free := rfl } rfl)

/-- DEC.ALIGN and what follows it. -/
theorem decodesTo_verdict (h : Mirrors cap log₀ l c p s) (hp : s.dec.phase = .align) (hov : p.overflow = false) :
    DecodesTo log₀ s (closedVerdict p c, p.events) := by
  obtain ⟨hi, -⟩ := h.vars
  have hbusy : s.dec.phase ≠ .idle := by simp [hp]
  have hop : decOp s = .ok .decAlign := by simp only [decOp, hp]
  have halign := execDecAlign_eq h.inside hp
  rw [closedVerdict_eq, hov, if_neg Bool.false_ne_true, ← hi]
  split_ifs with hone
  · rw [if_neg hone] at halign
    exact .raise hbusy hop halign h.log
  · rw [if_pos (not_not.mp hone)] at halign
    exact .step hbusy hop halign ((h.setPhase .check).decodesTo_checked rfl)

end Mirrors

/-! ## One iteration of step 3 (R150 to R155) -/

namespace PairLoop

/-- The first half of an iteration: the pair's bit enters `acc` (R150 to R152). -/
def takeBit (p : PairLoop) (a b : Bool) : PairLoop :=
  if a = b then { p with
    acc := shiftIn p.acc false, nbits := p.nbits + 1, i := p.i + 2, faults := p.faults + 1
    events := p.events ++ [.pairFault p.i a] }
  else { p with acc := shiftIn p.acc a, nbits := p.nbits + 1, i := p.i + 2 }

/-- A full `acc` becomes a byte of `out` (R153). -/
def closeByte (p : PairLoop) : PairLoop := { p with out := p.out ++ [p.acc], acc := 0, nbits := 0 }

/-- The closed form closes a byte in the iteration that completes it, the primitives in the next step (R160). -/
theorem consume_eq (cap : Nat) (p : PairLoop) (a b : Bool) :
    p.consume cap a b =
      if p.nbits + 1 = 8 then
        if p.out.length = cap then { p.takeBit a b with overflow := true } else (p.takeBit a b).closeByte
      else p.takeBit a b := by
  cases a <;> cases b <;> rfl

variable (p : PairLoop) (a b : Bool)

@[simp] theorem takeBit_i : (p.takeBit a b).i = p.i + 2 := by unfold takeBit; split <;> rfl
@[simp] theorem takeBit_nbits : (p.takeBit a b).nbits = p.nbits + 1 := by unfold takeBit; split <;> rfl
@[simp] theorem takeBit_out : (p.takeBit a b).out = p.out := by unfold takeBit; split <;> rfl
@[simp] theorem takeBit_overflow : (p.takeBit a b).overflow = p.overflow := by unfold takeBit; split <;> rfl
@[simp] theorem closeByte_i : p.closeByte.i = p.i := rfl
@[simp] theorem closeByte_overflow : p.closeByte.overflow = p.overflow := rfl

@[simp] theorem consume_i (cap : Nat) : (p.consume cap a b).i = p.i + 2 := by
  rw [consume_eq]
  split_ifs <;> simp

theorem consume_nbits_lt {cap : Nat} (hn : p.nbits < 8) (hov : ¬(p.consume cap a b).overflow = true) :
    (p.consume cap a b).nbits < 8 := by
  rw [consume_eq] at hov ⊢
  split_ifs with h8 hfull
  · simp [h8, hfull] at hov
  · exact Nat.zero_lt_succ 7
  · rw [takeBit_nbits]; omega

end PairLoop

theorem State.pairTaken_phase (s : State) (a b : Bool) :
    (s.pairTaken a b).dec.phase = nextPairPhase (s.pairTaken a b).dec := by
  unfold State.pairTaken
  split_ifs <;> rfl

namespace Mirrors
variable {cap : Nat} {log₀ : List Event} {l rest : List Bool} {c a b : Bool} {p : PairLoop} {s : State}
  {o : DecResult × List Event}

theorem pairTaken (h : Mirrors cap log₀ l c p s) (a b : Bool) :
    Mirrors cap log₀ l c (p.takeBit a b) (s.pairTaken a b) := by
  obtain ⟨hin, hfree, hcap, hlevels, hcomp, ⟨hi, ha, hn, hf⟩, hbytes, hlog⟩ := h
  unfold State.pairTaken PairLoop.takeBit
  split_ifs
  · refine ⟨hin, hfree, hcap, hlevels, hcomp, ?_, hbytes, ?_⟩
    · simp [pairFault, acceptBit, hi, ha, hn, hf]
    · simp [pairFault, hi, hlog]
  · refine ⟨hin, hfree, hcap, hlevels, hcomp, ?_, hbytes, hlog⟩
    simp [acceptBit, hi, ha, hn, hf]

theorem byteClosed (h : Mirrors cap log₀ l c p s) (hroom : p.out.length < cap) (x : DPhase) :
    Mirrors cap log₀ l c p.closeByte (s.setDec { s.dec with
      out := Memory.writeAll s.dec.out s.dec.outLen [s.dec.acc], outLen := s.dec.outLen + 1, acc := 0, nbits := 0
      phase := x }) := by
  obtain ⟨hin, hfree, hcap, hlevels, hcomp, ⟨hi, ha, -, hf⟩, ⟨hlen, -, hheld⟩, hlog⟩ := h
  refine ⟨hin, hfree, hcap, hlevels, hcomp, ⟨hi, rfl, rfl, hf⟩, ⟨?_, ?_, ?_⟩, hlog⟩
  · simp [PairLoop.closeByte, hlen]
  · simpa [PairLoop.closeByte] using hroom
  · rw [State.setDec_dec, hlen, ha]
    exact Memory.holds_append hheld [p.acc]

theorem atPair (h : Mirrors cap log₀ l c p s) (hnext : s.dec.phase = nextPairPhase s.dec) (hn : p.nbits < 8)
    (hrest : l.drop p.i = a :: b :: rest) : AtPair s a b := by
  obtain ⟨hlen, hcap, hheld⟩ := h.levels
  obtain ⟨hi, -, hnb, -⟩ := h.vars
  have hl := length_of_drop_eq_cons hrest
  rw [List.length_cons] at hl
  have ha : l[p.i]? = some a := by rw [← List.head?_drop, hrest]; rfl
  have hb : l[p.i + 1]? = some b := by rw [← List.head?_drop, ← List.drop_drop, hrest]; rfl
  refine ⟨h.inside, ?_, by omega, by omega, loadPair_eq_ok.mpr ⟨loadCell_eq_ok.mpr ⟨by omega, ?_⟩,
    loadCell_eq_ok.mpr ⟨by omega, ?_⟩⟩⟩
  · rw [hnext, nextPairPhase_eq, if_pos (.inr (by omega))]
  · rw [hi, hheld _ (by omega), ha]
  · rw [hi, hheld _ (by omega), hb]

/-- A full `acc` in the primitives: DEC.OVF when `out` is full, else DEC.BYTE (R153, R154). -/
theorem decodesTo_eighth (h : Mirrors cap log₀ l c p s) (hnext : s.dec.phase = nextPairPhase s.dec) (h8 : p.nbits = 8)
    (hfull : p.out.length = cap → o = (.error (.overflow p.out.length), p.events))
    (hroom : p.out.length < cap → ∀ u, Mirrors cap log₀ l c p.closeByte u → u.dec.phase = nextPairPhase u.dec →
      DecodesTo log₀ u o) : DecodesTo log₀ s o := by
  obtain ⟨-, -, hn, -⟩ := h.vars
  obtain ⟨hlen, hfits, -⟩ := h.bytes
  rw [h8] at hn
  have hp : s.dec.phase = .pair := by rw [hnext, nextPairPhase_eq, if_pos (.inl hn)]
  have hbusy : s.dec.phase ≠ .idle := by simp [hp]
  obtain hlt | heq := hfits.lt_or_eq
  · have hlt' : s.dec.outLen < s.cfg.maxFrameBytes := by rw [hlen, h.capacity]; exact hlt
    have hop : decOp s = .ok .decByte := by simp only [decOp, hp, if_pos hn, if_pos hlt']
    refine .step hbusy hop (execDecByte_eq h.inside hp hn hlt') (hroom hlt _ (h.byteClosed hlt _) ?_)
    simp [nextPairPhase_eq]
  · have heq' : s.dec.outLen = s.cfg.maxFrameBytes := by rw [hlen, h.capacity]; exact heq
    have hop : decOp s = .ok .decOvf := by simp only [decOp, hp, if_pos hn, if_neg heq'.not_lt]
    rw [hfull heq, ← hlen]
    exact .raise hbusy hop (execDecOvf_eq h.inside hp hn heq') h.log

/-- One iteration of the closed form in the primitives: the pair, and the byte it completes. -/
theorem decodesTo_consume (h : Mirrors cap log₀ l c p s) (hnext : s.dec.phase = nextPairPhase s.dec) (hn : p.nbits < 8)
    (hov : p.overflow = false) (hrest : l.drop p.i = a :: b :: rest)
    (hfull : (p.consume cap a b).overflow = true →
      o = (closedVerdict (p.consume cap a b) c, (p.consume cap a b).events))
    (hgo : (p.consume cap a b).overflow = false → ∀ u, Mirrors cap log₀ l c (p.consume cap a b) u →
      u.dec.phase = nextPairPhase u.dec → DecodesTo log₀ u o) : DecodesTo log₀ s o := by
  have hpair := h.atPair hnext hn hrest
  have hop : decOp s = .ok (pairOp a b) := decOp_of_pair hpair.phase hpair.nbits.ne hpair.pair
  have hnext' := s.pairTaken_phase a b
  have h' := h.pairTaken a b
  refine .step (by simp [hpair.phase]) hop hpair.exec_pairOp ?_
  rw [PairLoop.consume_eq] at hfull hgo
  split_ifs at hfull hgo with h8 hout
  · exact h'.decodesTo_eighth hnext' (by simpa using h8) (fun _ => hfull rfl) fun hlt => absurd hout (by simpa using hlt.ne)
  · exact h'.decodesTo_eighth hnext' (by simpa using h8) (fun heq => absurd (by simpa using heq) hout) fun _ =>
      hgo (by simpa using hov)
  · exact hgo (by simpa using hov) _ h' hnext'

/-- No pair is left (R155). -/
theorem align_of_no_pair (h : Mirrors cap log₀ l c p s) (hnext : s.dec.phase = nextPairPhase s.dec) (hn : p.nbits < 8)
    (hrest : (l.drop p.i).length ≤ 1) : s.dec.phase = .align := by
  obtain ⟨hi, -, hnb, -⟩ := h.vars
  obtain ⟨hll, -⟩ := h.levels
  rw [List.length_drop] at hrest
  rw [hnext, nextPairPhase_eq, if_neg (by omega)]

/-- Steps 3 to 5 from any iteration on, by the recursion of the closed form. -/
theorem decodesTo_pairs {rest : List Bool} {p : PairLoop} {s : State} (h : Mirrors cap log₀ l c p s)
    (hnext : s.dec.phase = nextPairPhase s.dec) (hn : p.nbits < 8) (hov : p.overflow = false) (hrest : l.drop p.i = rest) :
    DecodesTo log₀ s (closedFromPairs cap c rest p) := by
  match rest, hrest with
  | [], hrest | [_], hrest =>
    exact h.decodesTo_verdict (h.align_of_no_pair hnext hn (by simp [hrest])) hov
  | a :: b :: rest, hrest =>
    rw [closedFromPairs_cons_cons]
    split_ifs with hq
    · exact h.decodesTo_consume hnext hn hov hrest (fun _ => rfl) fun hno => by simp [hno] at hq
    · refine h.decodesTo_consume hnext hn hov hrest (fun hov' => absurd hov' hq) fun hno u hu hnext' => ?_
      refine decodesTo_pairs hu hnext' (p.consume_nbits_lt a b hn hq) hno ?_
      rw [PairLoop.consume_i, ← List.drop_drop, hrest]
      rfl

end Mirrors

end Sys2Proof.Machine
end

section
/-! PROOFS. DEC by its primitives against the closed form of R160, from step 1 on (O16), and what it answers on misaligned
sequences (O17). -/

namespace Sys2Proof.Machine

/-! ## Step 1 of the closed form (R141 to R147) -/

/-- Step 1 by the class of the sample (R92). -/
theorem closedLevels_cons (level : Bool) (k : Nat) (raw : Byte) (xs : List Byte) :
    closedLevels level k (raw :: xs) = match classify raw with
      | .short => .error (.widthTooShort k raw)
      | .single => (closedLevels (!level) (k + 1) xs).map (List.replicate 1 (!level) ++ ·)
      | .ambig => .error (.widthAmbiguous k raw)
      | .double => (closedLevels (!level) (k + 1) xs).map (List.replicate 2 (!level) ++ ·)
      | .long => .error (.widthTooLong k raw) := by
  have hscale (n : Nat) : 2 * raw.toNat < 2 * n ↔ raw.toNat < n := by omega
  have h60 : 2 * raw.toNat < 120 ↔ raw.toNat < 60 := hscale 60
  have h115 : 2 * raw.toNat < 230 ↔ raw.toNat < 115 := hscale 115
  have h140 : 2 * raw.toNat < 280 ↔ raw.toNat < 140 := hscale 140
  have h200 : 2 * raw.toNat < 400 ↔ raw.toNat < 200 := hscale 200
  simp only [classify_eq_ite, closedLevels, h60, h115, h140, h200]
  split_ifs <;> rfl

/-- DEC where the samples already classified gave the LevelBits `l`, by the outcome of step 1 on the others. -/
def closedFromSamples (cap : Nat) (l : List Bool) : Except DecError (List Bool) → DecResult × List Event
  | .error e => (.error e, [])
  | .ok l' => closedFromLevels cap (l ++ l')

theorem closedDec_eq (cap : Nat) (xs : List Byte) :
    closedDec cap xs = closedFromSamples cap [] (closedLevels true 0 xs) := by
  unfold closedDec
  cases closedLevels true 0 xs <;> rfl

theorem closedFromSamples_map (cap : Nat) (l ys : List Bool) (x : Except DecError (List Bool)) :
    closedFromSamples cap l (x.map (ys ++ ·)) = closedFromSamples cap (l ++ ys) x := by
  cases x with
  | error e => rfl
  | ok l' => simp only [Except.map, closedFromSamples, List.append_assoc]

/-! ## Step 1 in the decoder's registers -/

/-- What DEC.START leaves (R141). -/
def State.decodeStarted (s : State) : State := (s.setDec
  { s.dec with
    level := true, lLen := 0, k := 0, i := 1, acc := 0, nbits := 0, outLen := 0, pairFaults := 0, comp := false
    phase := if s.rxLen = 0 then .parity else .classify }).advance .decoding

/-- Step 1 under way on the DurationSequence `xs`: the levels of the first `k` samples are `l`, at most two for each, and no
variable of step 3 has moved. -/
structure Sampling (cap : Nat) (log₀ : List Event) (xs : List Byte) (l : List Bool) (s : State) : Prop where
  mirrors : Mirrors cap log₀ l false .start s
  copied : s.rxLen = xs.length ∧ s.rxLen ≤ s.cfg.rCap ∧ Memory.holds s.rxCopy xs
  room : 2 * s.cfg.rCap + 1 ≤ s.cfg.lCap
  index : s.dec.k ≤ s.rxLen ∧ l.length ≤ 2 * s.dec.k
  phase : s.dec.phase = if s.dec.k = s.rxLen then .parity else .classify

namespace Sampling
variable {cap n : Nat} {log₀ : List Event} {xs ys : List Byte} {l : List Bool} {raw : Byte} {s : State} {i : Instr}

/-- DEC.START leads to the empty LevelSequence (R141). -/
theorem of_start (h : ReadyToDecode s xs) : Sampling s.cfg.maxFrameBytes s.log xs [] s.decodeStarted := by
  obtain ⟨hin, -, -, hfree, hcopied, hroom⟩ := h
  refine ⟨⟨hin, hfree, rfl, ⟨rfl, Nat.zero_le _, ?_⟩, rfl, ⟨rfl, rfl, rfl, rfl⟩, ⟨rfl, Nat.zero_le _, ?_⟩, ?_⟩, hcopied,
    hroom, ⟨Nat.zero_le _, Nat.le_refl _⟩, if_congr eq_comm rfl rfl⟩
  · exact fun _ hj => absurd hj (Nat.not_lt_zero _)
  · exact fun _ hj => absurd hj (Nat.not_lt_zero _)
  · exact (List.append_nil _).symm

theorem atSample (h : Sampling cap log₀ xs l s) (hrest : xs.drop s.dec.k = raw :: ys) : AtSample s raw := by
  obtain ⟨hlen, hcap, hheld⟩ := h.copied
  have hxs := length_of_drop_eq_cons hrest
  have hraw : xs[s.dec.k]? = some raw := by rw [← List.head?_drop, hrest]; rfl
  refine ⟨h.mirrors.inside, ?_, by omega, loadCell_eq_ok.mpr ⟨by omega, ?_⟩⟩
  · rw [h.phase, if_neg (by omega)]
  · rw [hheld _ (by omega), hraw]

/-- A legal sample has room for its levels, and step 1 goes on with them (R144, R146). -/
theorem levelAppended (h : Sampling cap log₀ xs l s) (hs : AtSample s raw) (hn : n ≤ 2) :
    s.dec.lLen + n ≤ s.cfg.lCap ∧
      Sampling cap log₀ xs (l ++ List.replicate n (!s.dec.level)) (s.levelAppended raw n) := by
  obtain ⟨-, hcap, -⟩ := h.copied
  obtain ⟨hm, hcopied, hroom, ⟨-, hl⟩, -⟩ := h
  obtain ⟨hlen, -⟩ := hm.levels
  have hk := hs.remains
  have hfits : s.dec.lLen + n ≤ s.cfg.lCap := by omega
  have hm' := hm.append (List.replicate n (!s.dec.level)) (d := (s.levelAppended raw n).dec) rfl
    (by rw [List.length_replicate]; rfl) (by rwa [List.length_replicate]) rfl
  have hcomp : (s.levelAppended raw n).dec.comp = false := hm.comp
  rw [hcomp] at hm'
  refine ⟨hfits, hm', hcopied, hroom, ⟨hk, ?_⟩, rfl⟩
  rw [List.length_append, List.length_replicate]
  exact (by omega : l.length + n ≤ 2 * (s.dec.k + 1))

/-- DEC.PARITY and what follows it. -/
theorem decodesTo_levels (h : Sampling cap log₀ xs l s) (hend : s.dec.k = s.rxLen) :
    DecodesTo log₀ s (closedFromLevels cap l) := by
  obtain ⟨hm, ⟨-, hcap, -⟩, hroom, ⟨-, hl⟩, hp⟩ := h
  obtain ⟨hlen, -⟩ := hm.levels
  rw [if_pos hend] at hp
  have hbusy : s.dec.phase ≠ .idle := by simp [hp]
  have hop : decOp s = .ok .decParity := by simp only [decOp, hp]
  obtain heven | hodd := Nat.mod_two_eq_zero_or_one l.length
  · have hfits : s.dec.lLen + 1 ≤ s.cfg.lCap := by omega
    have hrestored := hm.append [true] (d := s.dec.restored) rfl rfl hfits rfl
    rw [closedFromLevels_of_even cap heven]
    refine .step hbusy hop (execDecParity_of_even hm.inside hp (hlen ▸ heven) hfits) ?_
    exact (hrestored.setPhase _).decodesTo_pairs rfl (by decide) rfl rfl
  · rw [closedFromLevels_of_odd cap hodd]
    refine .step hbusy hop (execDecParity_of_odd hm.inside hp (hlen ▸ hodd)) ?_
    exact (hm.setPhase _).decodesTo_pairs rfl (by decide) rfl rfl

/-- DEC.SINGLE or DEC.DOUBLE, where the decode goes on as the closed form does from the next sample. -/
theorem decodesTo_appended (h : Sampling cap log₀ xs l s) (hs : AtSample s raw) (hn : n ≤ 2) (hop : decOp s = .ok i)
    (hexec : s.dec.lLen + n ≤ s.cfg.lCap → exec i s = .next (s.levelAppended raw n)) {x : Except DecError (List Bool)}
    (hgo : Sampling cap log₀ xs (l ++ List.replicate n (!s.dec.level)) (s.levelAppended raw n) →
      DecodesTo log₀ (s.levelAppended raw n) (closedFromSamples cap (l ++ List.replicate n (!s.dec.level)) x)) :
    DecodesTo log₀ s (closedFromSamples cap l (x.map (List.replicate n (!s.dec.level) ++ ·))) := by
  obtain ⟨hfits, hnext⟩ := h.levelAppended hs hn
  rw [closedFromSamples_map]
  exact .step (by simp [hs.phase]) hop (hexec hfits) (hgo hnext)

/-- The decode from any sample on, by the recursion of step 1. -/
theorem decodesTo_samples (h : Sampling cap log₀ xs l s) (hrest : xs.drop s.dec.k = ys) :
    DecodesTo log₀ s (closedFromSamples cap l (closedLevels s.dec.level s.dec.k ys)) := by
  induction ys generalizing s l with
  | nil =>
    obtain ⟨hlen, -⟩ := h.copied
    obtain ⟨hk, -⟩ := h.index
    have hall := List.drop_eq_nil_iff.mp hrest
    rw [closedLevels, closedFromSamples, List.append_nil]
    exact h.decodesTo_levels (by omega)
  | cons raw ys ih =>
    have hs := h.atSample hrest
    have hbusy : s.dec.phase ≠ .idle := by simp [hs.phase]
    have hrest' : xs.drop (s.dec.k + 1) = ys := by rw [← List.drop_drop, hrest]; rfl
    have hop := decOp_of_classify hs.phase hs.sample
    rw [sampleOp] at hop
    rw [closedLevels_cons]
    cases hc : classify raw <;> simp only [hc] at hop ⊢
    case short => exact .raise hbusy hop (hs.onSample_raise hc _ _) h.mirrors.log
    case single =>
      exact h.decodesTo_appended hs (by decide) hop (fun hfits => hs.onSample_append hc hfits _) (ih · hrest')
    case ambig => exact .raise hbusy hop (hs.onSample_raise hc _ _) h.mirrors.log
    case double =>
      exact h.decodesTo_appended hs (by decide) hop (fun hfits => hs.onSample_append hc hfits _) (ih · hrest')
    case long => exact .raise hbusy hop (hs.onSample_raise hc _ _) h.mirrors.log

end Sampling

/-! ## The whole function (R160) -/

/-- DEC.START begins step 1 on all the samples, and DEC's fuel covers the decode from there. -/
theorem decRun_of_ready {s : State} {xs : List Byte} (h : ReadyToDecode s xs) : ∃ t, decRun s = .next t ∧
    t.dec.result = (closedDec s.cfg.maxFrameBytes xs).1 ∧ t.log = s.log ++ (closedDec s.cfg.maxFrameBytes xs).2 := by
  have hstart : execDecStart s = .next s.decodeStarted := execDecStart_eq_next.mpr ⟨h.hphase, h.idle, h.fresh, rfl⟩
  rw [decRun, hstart, Out.andThen_next, closedDec_eq]
  exact (Sampling.of_start h).decodesTo_samples rfl _ (decRank_le_decSteps rfl rfl rfl)

/-- Settles O16: the outcome by following the closed form, the rest by the frame of a decode. -/
theorem decodeIsItsClosedForm : Obligations.DecodeIsItsClosedForm := by
  intro s xs h
  obtain ⟨t, hrun, hres, hlog⟩ := decRun_of_ready h
  obtain ⟨-, -, -, hframe, hidle⟩ := decRun_ends hrun
  have hguard : (decodeReady s && crcFree s.crc) = true := by
    simp [decodeReady, decodingAt_of h.hphase h.idle, h.fresh, h.free]
  have hexec : exec .dec s = .next t := enabledIf_eq_next.mpr ⟨hguard, hrun⟩
  refine ⟨t.dec, t.crc, ?_, hres, hidle, hframe.crcIdle h.free⟩
  rw [hexec, ← hlog]
  exact congrArg _ hframe.rest

/-! ## Misaligned sequences (R156, R161) -/

/-- Where step 3 does not overflow it consumes every pair (R155). -/
theorem closedPairs_i (cap : Nat) (l : List Bool) (p : PairLoop) (hov : ¬(closedPairs cap l p).overflow = true) :
    (closedPairs cap l p).i = p.i + 2 * (l.length / 2) := by
  match l with
  | [] | [_] => simp [closedPairs]
  | a :: b :: l =>
    rw [closedPairs] at hov ⊢
    split_ifs at hov ⊢ with hq
    · exact absurd hq hov
    · rw [closedPairs_i cap l _ hov, PairLoop.consume_i, List.length_cons, List.length_cons]
      omega

/-- An odd LevelSequence ends in an overflow, or its length is found misaligned. -/
theorem closedFromPairs_of_misaligned (cap : Nat) (c : Bool) {l : List Bool} (hodd : l.length % 2 = 1)
    (hmis : l.length % 16 ≠ 1) : ∃ e, (closedFromPairs cap c (l.drop 1) .start).1 = .error e := by
  rw [closedFromPairs, closedVerdict_eq]
  split_ifs with hov hone
  · exact ⟨_, rfl⟩
  · exact ⟨_, rfl⟩
  · have hi : (closedPairs cap (l.drop 1) .start).i = 1 + 2 * ((l.drop 1).length / 2) := closedPairs_i cap _ _ hov
    rw [List.length_drop] at hi
    omega

theorem closedFromLevels_of_misaligned (cap : Nat) {l : List Bool}
    (h : (if l.length % 2 = 0 then l.length + 1 else l.length) % 16 ≠ 1) :
    ∃ e, (closedFromLevels cap l).1 = .error e := by
  split_ifs at h with heven
  · rw [closedFromLevels_of_even cap heven]
    rw [← List.length_singleton (a := true), ← List.length_append] at h
    exact closedFromPairs_of_misaligned cap true (by rw [List.length_append, List.length_singleton]; omega) h
  · have hodd := Nat.mod_two_ne_zero.mp heven
    rw [closedFromLevels_of_odd cap hodd]
    exact closedFromPairs_of_misaligned cap false hodd h

/-- Settles O17, by the closed form. -/
theorem misalignedSequencesAreRejected : Obligations.MisalignedSequencesAreRejected := by
  intro s t xs l h hl hmis ht
  obtain ⟨d, c, hexec, hres, -⟩ := decodeIsItsClosedForm s xs h
  obtain rfl := Host.Outcome.next.inj (hexec.symm.trans ht)
  rw [closedDec, hl] at hres
  obtain ⟨e, he⟩ := closedFromLevels_of_misaligned s.cfg.maxFrameBytes hmis
  exact ⟨e, hres.trans he⟩

end Sys2Proof.Machine
end

section
/-! PROOFS. The encoder's operations (O20 to O23; R181 to R184): what each answers where its guard holds, on the payload
RLY.OUT returned. -/

namespace Sys2Proof.Machine

/-! ## The tests of ENC.CHECK and the closed form of ENC (R181, R184) -/

section
variable {cfg : Config} {q : Nat}

/-- The odd test comes first (R181, R289). -/
theorem encRefusal_of_odd (hodd : q % 2 = 1) : encRefusal cfg q = some (.oddLength q) := if_pos hodd

theorem encRefusal_of_too_long (heven : q % 2 = 0) (hlong : cfg.wCap < q + 2) :
    encRefusal cfg q = some (.tooLong q) := by
  rw [encRefusal, if_neg (by omega), if_pos hlong]

/-- The closed form refuses exactly what ENC.CHECK refuses. -/
theorem closedEnc_eq_error {p : List Byte} {e : EncError} :
    closedEnc cfg.wCap p = .error e ↔ encRefusal cfg p.length = some e := by
  unfold closedEnc encRefusal
  split_ifs <;> simp

theorem closedEnc_eq_ok {p w : List Byte} :
    closedEnc cfg.wCap p = .ok w ↔ encRefusal cfg p.length = none ∧ w = wireFrame p := by
  unfold closedEnc encRefusal
  split_ifs <;> simp [eq_comm]

end

/-! ## The operations where their guards hold (R181 to R184) -/

section
variable {s : State} {a : Progress} {p : List Byte} {h l : Byte}

theorem fillingAt_eq_false (h : s.progress ≠ a) : fillingAt a s = false := by simp [fillingAt, h]

theorem execEncCrc_of_not_admitted (h : s.progress ≠ .admitted) :
    execEncCrc p s = .refused (.notEnabled "ENC.CRC") := by
  rw [execEncCrc, fillingAt_eq_false h, Bool.false_and, Bool.false_and, enabledIf_false]

theorem execEncFill_of_not_summed (h : s.progress ≠ .summed) :
    execEncFill p s = .refused (.notEnabled "ENC.FILL") := by
  rw [execEncFill, fillingAt_eq_false h, Bool.false_and, enabledIf_false]

theorem txPayload_of_dgram (hdgram : s.txDgram = h :: l :: p) : txPayload s = some p :=
  txPayload_eq_some.mpr ⟨h, l, hdgram⟩

section
variable (hphase : s.hphase = .txFill) (hdgram : s.txDgram = h :: l :: p)
include hphase hdgram

theorem execEncCheck_of_refused {e : EncError} (hprog : s.progress = .unframed)
    (he : encRefusal s.cfg p.length = some e) :
    execEncCheck p.length s = .next { s with result := .encError e, progress := .ended } := by
  simp only [execEncCheck, fillingAt_iff.mpr ⟨hphase, hprog⟩, txPayload_of_dgram hdgram, he, Option.map_some,
    beq_self_eq_true, Bool.and_self, enabledIf_true]
  rfl

theorem execEncCheck_of_admitted (hprog : s.progress = .unframed) (hadm : encRefusal s.cfg p.length = none) :
    execEncCheck p.length s =
      .next { s with enc := { s.enc with len := p.length }, result := .encOk, progress := .admitted } := by
  simp only [execEncCheck, fillingAt_iff.mpr ⟨hphase, hprog⟩, txPayload_of_dgram hdgram, hadm, Option.map_some,
    beq_self_eq_true, Bool.and_self, enabledIf_true]
  rfl

theorem execEncCrc_of_admitted (hprog : s.progress = .admitted) (hlen : s.enc.len = p.length)
    (hfree : s.crc.phase = .idle) :
    execEncCrc p s =
      .next { s with crc := s.crc.run p, enc := { s.enc with crc := crc16 p }, progress := .summed } := by
  simp only [execEncCrc, fillingAt_iff.mpr ⟨hphase, hprog⟩, txPayload_of_dgram hdgram, crcFree_iff.mpr hfree,
    beq_self_eq_true, Bool.and_self, enabledIf_true, encChecksum, hlen, List.take_length, CrcUnit.run_reg]
  rfl

theorem execEncFill_of_summed (hprog : s.progress = .summed) (hlen : s.enc.len = p.length)
    (hfit : p.length + 2 ≤ s.cfg.wCap) (how : s.ifb.wOwner = .host) :
    execEncFill p s = .next { s with
      wbuf := Memory.writeAll s.wbuf 0 (p ++ [hi s.enc.crc, lo s.enc.crc])
      ifb := { s.ifb with wLength := BitVec.ofNat 32 (p.length + 2) }, progress := .ended } := by
  have hstore := encStore_eq_next.mpr ⟨how, by rw [hlen, List.take_length]; exact hfit, rfl⟩
  simp only [execEncFill, fillingAt_iff.mpr ⟨hphase, hprog⟩, txPayload_of_dgram hdgram, beq_self_eq_true, Bool.and_self,
    enabledIf_true, hstore, Out.andThen_next, hlen, List.take_length]
  rfl

theorem execEnc_of_refused {e : EncError} (hprog : s.progress = .unframed) (hfree : s.crc.phase = .idle)
    (he : encRefusal s.cfg p.length = some e) :
    execEnc p s = .next { s with result := .encError e, progress := .ended } := by
  simp only [execEnc, fillingAt_iff.mpr ⟨hphase, hprog⟩, txPayload_of_dgram hdgram, crcFree_iff.mpr hfree, he,
    beq_self_eq_true, Bool.and_self, enabledIf_true]
  rfl

end

/-- What ENC leaves of an admitted payload is its wire frame, stored (R96, R184). -/
theorem State.encoded_eq (p : List Byte) (s : State) : s.encoded p = { s with
    wbuf := Memory.writeAll s.wbuf 0 (wireFrame p)
    crc := s.crc.run p
    enc := { len := p.length, crc := crc16 p }
    ifb := { s.ifb with wLength := BitVec.ofNat 32 (wireFrame p).length } } := by
  have hlen : (wireFrame p).length = p.length + 2 := by simp [wireFrame]
  rw [hlen, ← CrcUnit.run_reg s.crc, wireFrame, ← CrcUnit.run_reg s.crc]
  rfl

end

/-! ## The obligations -/

/-- Settles O20, by the order of the two tests. -/
theorem encoderAdmitsOrRefuses : Obligations.EncoderAdmitsOrRefuses := fun _ _ _ _ hphase hprog hdgram =>
  ⟨fun hodd => execEncCheck_of_refused hphase hdgram hprog (encRefusal_of_odd hodd),
    fun heven hlong => execEncCheck_of_refused hphase hdgram hprog (encRefusal_of_too_long heven hlong),
    fun heven hfit => execEncCheck_of_admitted hphase hdgram hprog (encRefusal_eq_none heven hfit)⟩

/-- Settles O21: CRC16 on the unit is its closed form, and the guard asks for ENC.CHECK. -/
theorem encoderComputesTheChecksum : Obligations.EncoderComputesTheChecksum := by
  refine ⟨fun s h l p hphase hprog hdgram hlen hfree => ?_, fun s p hprog => ?_⟩
  · exact ⟨s.crc.run p, CrcUnit.run_reg _ _, rfl, execEncCrc_of_admitted hphase hdgram hprog hlen hfree⟩
  · exact execEncCrc_of_not_admitted hprog

/-- Settles O22: what a store leaves at each index, and the guard asks for ENC.CRC. -/
theorem encoderFillsTheBuffer : Obligations.EncoderFillsTheBuffer := by
  refine ⟨fun s h l p hphase hprog hdgram hlen hfit how => ?_, fun s p hprog => ?_⟩
  · exact ⟨_, Memory.stored_writeAll _ _ _, execEncFill_of_summed hphase hdgram hprog hlen hfit how⟩
  · exact execEncFill_of_not_summed hprog

/-- Settles O23: ENC and its closed form make the same refusals, and store the same frame. -/
theorem encodePlacesTheWireFrame : Obligations.EncodePlacesTheWireFrame := by
  refine fun s h l p hphase hprog hdgram hfree => ⟨fun e he => ?_, fun w hw how => ?_⟩
  · exact execEnc_of_refused hphase hdgram hprog hfree (closedEnc_eq_error.mp he)
  · obtain ⟨hadm, rfl⟩ := closedEnc_eq_ok.mp hw
    obtain ⟨heven, hfit⟩ := encRefusal_eq_none_iff.mp hadm
    obtain ⟨e, hout⟩ : ∃ e, relayOut s.txDgram = .ok (p, e) := by rw [hdgram]; exact ⟨_, rfl⟩
    have hexec : exec (.enc p) s = .next (((s.encoded p).setResult .encOk).advance .ended) :=
      Filling.execEnc_eq ⟨hphase, hprog, hfree, how, hout, heven, hfit⟩
    rw [State.encoded_eq] at hexec
    exact ⟨_, _, Memory.stored_writeAll _ _ _, CrcUnit.run_reg _ _, rfl, hexec⟩

end Sys2Proof.Machine
end

section
/-! PROOFS. The reference serialiser (O24, O25; R185, R186): the levels of a frame by position, and the runs of a level
sequence as the alternating sequence of non-empty runs that gives it. -/

namespace Sys2Proof.Machine

/-! ## The half-bit levels of a frame (R185) -/

/-- Where `f` gives blocks of `n`, item `i` of the block of item `j`. -/
theorem getElem?_flatMap_of_length {α β : Type} {f : α → List β} {n : Nat} (hf : ∀ x, (f x).length = n) {l : List α}
    {j i : Nat} {x : α} (hx : l[j]? = some x) (hi : i < n) : (l.flatMap f)[n * j + i]? = (f x)[i]? := by
  induction l generalizing j with
  | nil => cases hx
  | cons y ys ih =>
    rw [List.flatMap_cons]
    cases j with
    | zero =>
      obtain rfl := Option.some.inj hx
      rw [Nat.mul_zero, Nat.zero_add, List.getElem?_append_left (by rwa [hf])]
    | succ j =>
      have hindex : n * (j + 1) + i - (f y).length = n * j + i := by rw [hf, Nat.mul_succ]; omega
      rw [List.getElem?_append_right (by rw [hf, Nat.mul_succ]; omega), hindex, ih hx]

/-- The half-bit levels of one byte (R185). -/
def byteHalves (b : Byte) : List Bool := (bitsMsbFirst b).flatMap bitHalves

@[simp] theorem bitHalves_length (v : Bool) : (bitHalves v).length = 2 := rfl
@[simp] theorem byteHalves_length (b : Byte) : (byteHalves b).length = 16 := rfl

theorem serialLevels_eq (w : List Byte) : serialLevels w = true :: false :: w.flatMap byteHalves := rfl

theorem serialLevels_length (w : List Byte) : (serialLevels w).length = 16 * w.length + 2 := by
  rw [serialLevels_eq, List.length_cons, List.length_cons, List.length_flatMap]
  simp [Nat.mul_comm]

theorem bitsMsbFirst_getElem? (b : Byte) {t : Nat} (ht : t < 8) : (bitsMsbFirst b)[t]? = some (b.getLsbD (7 - t)) := by
  interval_cases t <;> rfl

/-- Half `i` of bit `7 - t` of byte `j` of the frame. -/
theorem serialLevels_getElem? {w : List Byte} {j t i : Nat} {b : Byte} (hb : w[j]? = some b) (ht : t < 8) (hi : i < 2) :
    (serialLevels w)[2 + 16 * j + 2 * t + i]? = (bitHalves (b.getLsbD (7 - t)))[i]? := by
  have hindex : 2 + 16 * j + 2 * t + i = 16 * j + (2 * t + i) + 1 + 1 := by omega
  calc (serialLevels w)[2 + 16 * j + 2 * t + i]? = (w.flatMap byteHalves)[16 * j + (2 * t + i)]? := by
        rw [serialLevels_eq, hindex, List.getElem?_cons_succ, List.getElem?_cons_succ]
    _ = (byteHalves b)[2 * t + i]? := getElem?_flatMap_of_length byteHalves_length hb (by omega)
    _ = (bitHalves (b.getLsbD (7 - t)))[i]? :=
        getElem?_flatMap_of_length bitHalves_length (bitsMsbFirst_getElem? b ht) hi

/-- Settles O24: every byte gives a block of sixteen levels, and every bit of it a block of two. -/
theorem serialLevelsAreManchester : Obligations.SerialLevelsAreManchester := by
  refine fun s w => ⟨serialLevels w, rfl, serialLevels_length w, rfl, rfl, fun j t b hb ht => ⟨?_, ?_⟩⟩
  · exact serialLevels_getElem? hb ht (i := 0) (by decide)
  · have hindex : 3 + 16 * j + 2 * t = 2 + 16 * j + 2 * t + 1 := by omega
    rw [hindex]
    exact serialLevels_getElem? hb ht (by decide)

/-! ## The runs of a level sequence (R186) -/

/-- The level sequence that consists of the given runs. -/
def levelsOfRuns (rs : List (Bool × Nat)) : List Bool := rs.flatMap fun r => List.replicate r.2 r.1

/-- Each run has the level the run before it has not. -/
def Alternate (rs : List (Bool × Nat)) : Prop := rs.IsChain fun r q => q.1 = !r.1

theorem levelsOfRuns_cons (r : Bool × Nat) (rs : List (Bool × Nat)) :
    levelsOfRuns (r :: rs) = List.replicate r.2 r.1 ++ levelsOfRuns rs := List.flatMap_cons

/-- The first run has the first level. -/
theorem exists_levelRuns_cons (v : Bool) (l : List Bool) : ∃ n rs, levelRuns (v :: l) = (v, n + 1) :: rs := by
  rw [levelRuns]
  cases levelRuns l with
  | nil => exact ⟨0, [], rfl⟩
  | cons r rs =>
    by_cases h : r.1 = v
    · exact ⟨r.2, rs, by simp [h]⟩
    · exact ⟨0, r :: rs, by simp [h]⟩

/-- A level equal to the next one joins its run. -/
theorem levelRuns_cons_same {v : Bool} {n : Nat} {l : List Bool} {rs : List (Bool × Nat)}
    (h : levelRuns (v :: l) = (v, n) :: rs) : levelRuns (v :: v :: l) = (v, n + 1) :: rs := by
  rw [levelRuns, h]
  exact if_pos rfl

/-- A level unlike the next one is a run. -/
theorem levelRuns_cons_ne {u v : Bool} (h : v ≠ u) (l : List Bool) :
    levelRuns (u :: v :: l) = (u, 1) :: levelRuns (v :: l) := by
  obtain ⟨n, rs, hrs⟩ := exists_levelRuns_cons v l
  rw [levelRuns, hrs]
  exact if_neg h

theorem levelRuns_replicate_append {v : Bool} {l : List Bool} (h : ∀ u ∈ l.head?, u = !v) (n : Nat) :
    levelRuns (List.replicate (n + 1) v ++ l) = (v, n + 1) :: levelRuns l := by
  induction n with
  | zero =>
    cases l with
    | nil => rfl
    | cons u l => exact levelRuns_cons_ne (by simp [h u rfl]) l
  | succ n ih => exact levelRuns_cons_same ih

theorem levelsOfRuns_head? {rs : List (Bool × Nat)} (hpos : ∀ r ∈ rs, 1 ≤ r.2) :
    (levelsOfRuns rs).head? = rs.head?.map Prod.fst := by
  cases rs with
  | nil => rfl
  | cons r rs =>
    obtain ⟨n, hn⟩ := Nat.exists_eq_add_of_le' (hpos r List.mem_cons_self)
    rw [levelsOfRuns_cons, hn]
    rfl

/-- Alternating runs, none empty, are the runs of the sequence they give. -/
theorem levelRuns_levelsOfRuns {rs : List (Bool × Nat)} (halt : Alternate rs) (hpos : ∀ r ∈ rs, 1 ≤ r.2) :
    levelRuns (levelsOfRuns rs) = rs := by
  induction rs with
  | nil => rfl
  | cons r rs ih =>
    obtain ⟨hr, hrs⟩ := List.isChain_cons.mp halt
    have hpos' : ∀ q ∈ rs, 1 ≤ q.2 := fun q hq => hpos q (List.mem_cons_of_mem r hq)
    obtain ⟨n, hn⟩ := Nat.exists_eq_add_of_le' (hpos r List.mem_cons_self)
    have hhead : ∀ u ∈ (levelsOfRuns rs).head?, u = !r.1 := by
      rw [levelsOfRuns_head? hpos']
      intro u hu
      obtain ⟨q, hq, rfl⟩ := Option.mem_map.mp hu
      exact hr q hq
    rw [levelsOfRuns_cons, hn, levelRuns_replicate_append hhead, ih hrs hpos', ← hn]

theorem dropOpenRun_eq (rs : List (Bool × Nat)) :
    dropOpenRun rs = if rs.getLast?.map Prod.fst = some true then rs.dropLast else rs := by
  unfold dropOpenRun
  match rs.getLast? with
  | none => rfl
  | some (true, _) => rfl
  | some (false, _) => rfl

/-- Settles O25: the given runs are the runs the serialiser finds. -/
theorem serialDurationsAreRuns : Obligations.SerialDurationsAreRuns := by
  intro s h rs halt hpos hlevels
  have hchain : Alternate rs := List.isChain_iff_getElem.mpr fun j hj =>
    halt j _ _ (List.getElem?_eq_getElem _) (List.getElem?_eq_getElem hj)
  refine ⟨serialDurations s.cfg h, rfl, ?_⟩
  rw [serialDurations, hlevels, ← levelsOfRuns, levelRuns_levelsOfRuns hchain hpos, dropOpenRun_eq]
  rfl

end Sys2Proof.Machine
end

section
/-! PROOFS. The round trip of O19 (R187): the serialiser's durations give the decoder the levels of the frame, but for a
final 1 that DEC.PARITY restores, and the pairs of those levels give it the bytes. -/

namespace Sys2Proof.Machine

/-! ## Step 1 of the decoder on a serialiser's durations (R144, R146, R186) -/

/-- A level sequence consists of its runs. -/
theorem levelsOfRuns_levelRuns (l : List Bool) : levelsOfRuns (levelRuns l) = l := by
  induction l with
  | nil => rfl
  | cons v l ih =>
    cases l with
    | nil => rfl
    | cons u l =>
      by_cases h : u = v
      · subst h
        obtain ⟨n, rs, hrs⟩ := exists_levelRuns_cons u l
        rw [hrs] at ih
        rw [levelRuns_cons_same hrs, levelsOfRuns_cons, ← ih, levelsOfRuns_cons]
        rfl
      · rw [levelRuns_cons_ne h, levelsOfRuns_cons, ih]
        rfl

theorem alternate_levelRuns (l : List Bool) : Alternate (levelRuns l) := by
  induction l with
  | nil => exact .nil
  | cons v l ih =>
    cases l with
    | nil => exact .singleton _
    | cons u l =>
      obtain ⟨n, rs, hrs⟩ := exists_levelRuns_cons u l
      by_cases h : u = v
      · subst h
        rw [hrs] at ih
        rw [levelRuns_cons_same hrs]
        exact List.isChain_cons.mpr (List.isChain_cons.mp ih)
      · rw [levelRuns_cons_ne h, hrs]
        exact List.isChain_cons_cons.mpr ⟨Bool.eq_not.mpr h, hrs ▸ ih⟩

/-- The serialiser's widths lie in the decoder's windows (R92). -/
structure WidthsInWindows (cfg : Config) : Prop where
  half : 60 ≤ cfg.tHalfRaw.toNat ∧ cfg.tHalfRaw.toNat ≤ 114
  full : 140 ≤ cfg.tFullRaw.toNat ∧ cfg.tFullRaw.toNat ≤ 199

section
variable {cfg : Config}

/-- Step 1 appends a run of one or two levels for each duration, as the level toggles with each. -/
theorem closedLevels_runDuration (hw : WidthsInWindows cfg) {level : Bool} {n : Nat} {rs : List (Bool × Nat)}
    (halt : Alternate ((level, n) :: rs)) (hshort : ∀ r ∈ rs, r.2 = 1 ∨ r.2 = 2) (k : Nat) :
    closedLevels level k (rs.map (runDuration cfg)) = .ok (levelsOfRuns rs) := by
  induction rs generalizing level n k with
  | nil => rfl
  | cons r rs ih =>
    obtain ⟨v, m⟩ := r
    obtain ⟨rfl, hrest⟩ := List.isChain_cons_cons.mp halt
    have hgo := ih hrest (fun q hq => hshort q (List.mem_cons_of_mem _ hq)) (k + 1)
    rw [List.map_cons, closedLevels_cons, levelsOfRuns_cons]
    obtain rfl | rfl : m = 1 ∨ m = 2 := hshort _ List.mem_cons_self
    · have hclass : classify (runDuration cfg (!level, 1)) = .single := classify_single hw.half.1 hw.half.2
      simp only [hclass, hgo, Except.map]
    · have hclass : classify (runDuration cfg (!level, 2)) = .double := classify_double hw.full.1 hw.full.2
      simp only [hclass, hgo, Except.map]

/-- The decoder restores the level sequence whose runs it gets, where the sequence begins with 0. -/
theorem closedLevels_levelRuns (hw : WidthsInWindows cfg) {l : List Bool}
    (hshort : ∀ r ∈ levelRuns (false :: l), r.2 = 1 ∨ r.2 = 2) :
    closedLevels true 0 ((levelRuns (false :: l)).map (runDuration cfg)) = .ok (false :: l) := by
  have halt : Alternate ((true, 1) :: levelRuns (false :: l)) :=
    levelRuns_cons_ne Bool.false_ne_true l ▸ alternate_levelRuns (true :: false :: l)
  rw [closedLevels_runDuration hw halt hshort, levelsOfRuns_levelRuns]

/-! ## The runs of a frame's levels (R97, R185) -/

/-- The two halves of a bit differ, so a run ends with the first of them. -/
theorem levelRuns_cons_bitHalves (u v : Bool) (l : List Bool) : levelRuns (u :: (bitHalves v ++ l)) =
    if v = u then (v, 2) :: levelRuns ((!v) :: l) else (u, 1) :: (v, 1) :: levelRuns ((!v) :: l) := by
  have hhalves : levelRuns (v :: (!v) :: l) = (v, 1) :: levelRuns ((!v) :: l) :=
    levelRuns_cons_ne (Bool.not_ne_self v) l
  split_ifs with h
  · subst h
    exact levelRuns_cons_same hhalves
  · exact (levelRuns_cons_ne h _).trans (congrArg _ hhalves)

theorem levelRuns_bits_short (u : Bool) (bits : List Bool) :
    ∀ r ∈ levelRuns (u :: bits.flatMap bitHalves), r.2 = 1 ∨ r.2 = 2 := by
  induction bits generalizing u with
  | nil => simp [levelRuns]
  | cons v bits ih =>
    rw [List.flatMap_cons, levelRuns_cons_bitHalves]
    split_ifs
    · exact List.forall_mem_cons.mpr ⟨.inr rfl, ih _⟩
    · exact List.forall_mem_cons.mpr ⟨.inl rfl, List.forall_mem_cons.mpr ⟨.inl rfl, ih _⟩⟩

/-- The last half of a frame is a run of its own. -/
theorem levelRuns_append_bitHalves (l : List Bool) (v : Bool) :
    levelRuns (l ++ [v, !v]) = levelRuns (l ++ [v]) ++ [(!v, 1)] := by
  induction l with
  | nil => exact levelRuns_cons_ne (Bool.not_ne_self v) []
  | cons u l ih =>
    obtain ⟨r, rs, hrs⟩ : ∃ r rs, levelRuns (l ++ [v]) = r :: rs := by
      cases l with
      | nil => exact ⟨_, _, rfl⟩
      | cons w l => obtain ⟨n, rs, h⟩ := exists_levelRuns_cons w (l ++ [v]); exact ⟨_, rs, h⟩
    rw [hrs] at ih
    simp only [List.cons_append, levelRuns, ih, hrs]
    split_ifs <;> rfl

/-- The serialiser leaves a final 1 out, and a final 0 in. -/
theorem dropOpenRun_levelRuns (l : List Bool) (v : Bool) :
    dropOpenRun (levelRuns (l ++ [v, !v])) = levelRuns (l ++ if v then [v, !v] else [v]) := by
  rw [levelRuns_append_bitHalves]
  cases v with
  | true => exact (dropOpenRun_eq _).trans (by simpa using (levelRuns_append_bitHalves l true).symm)
  | false => exact (dropOpenRun_eq _).trans (by simp)

theorem mem_of_mem_dropOpenRun {r : Bool × Nat} {rs : List (Bool × Nat)} (h : r ∈ dropOpenRun rs) : r ∈ rs := by
  rw [dropOpenRun_eq] at h
  split_ifs at h
  · exact List.mem_of_mem_dropLast h
  · exact h

/-- What the decoder makes of the durations of the bits `bits` and `v`: all their levels but a final 1. -/
theorem closedLevels_serialDurations (hw : WidthsInWindows cfg) (bits : List Bool) (v : Bool) :
    closedLevels true 0 (serialDurations cfg (true :: false :: (bits ++ [v]).flatMap bitHalves)) =
      .ok (false :: (bits.flatMap bitHalves ++ if v then [v, !v] else [v])) := by
  have hhalves : (bits ++ [v]).flatMap bitHalves = bits.flatMap bitHalves ++ [v, !v] := List.flatMap_append
  have hdrop := dropOpenRun_levelRuns (false :: bits.flatMap bitHalves) v
  rw [List.cons_append, List.cons_append, ← hhalves] at hdrop
  rw [serialDurations, List.drop_one, List.tail_cons, hdrop]
  exact closedLevels_levelRuns hw fun r hr => levelRuns_bits_short false _ r (mem_of_mem_dropOpenRun (hdrop ▸ hr))

end

/-! ## Step 3 of the decoder on a frame's levels (R150 to R153) -/

/-- The bit shifted in becomes the least significant one (R95). -/
theorem getLsbD_shiftIn (acc : Byte) (v : Bool) {i : Nat} (hi : i < 8) :
    (shiftIn acc v).getLsbD i = if i = 0 then v else acc.getLsbD (i - 1) := by
  have hbit : (if v then 1 else 0 : Byte).getLsbD i = (decide (i = 0) && v) := by cases v <;> simp
  rw [shiftIn, BitVec.getLsbD_or, hbit, BitVec.getLsbD_shiftLeft]
  cases i <;> simp
  omega

/-- Shifting in the bits of a byte, most significant first, gives the byte (R63, R95). -/
theorem foldl_shiftIn_bitsMsbFirst (b : Byte) : (bitsMsbFirst b).foldl shiftIn 0 = b := by
  refine BitVec.eq_of_getLsbD_eq fun i hi => ?_
  simp only [bitsMsbFirst, List.foldl]
  interval_cases i <;> simp (disch := decide) only [getLsbD_shiftIn] <;> rfl

section
variable {cap : Nat}

/-- A pair that is no fault puts its first half into `acc` (R150, R151). -/
theorem PairLoop.takeBit_halves (p : PairLoop) (v : Bool) :
    p.takeBit v (!v) = { p with acc := shiftIn p.acc v, nbits := p.nbits + 1, i := p.i + 2 } :=
  if_neg (Bool.not_ne_self v).symm

/-- Where `out` has room, the halves of a bit are one iteration that goes on, and closes the byte the bit completes. -/
theorem closedPairs_bitHalves {p : PairLoop} (hov : p.overflow = false) (hroom : p.out.length ≠ cap) (v : Bool)
    (rest : List Bool) :
    closedPairs cap (bitHalves v ++ rest) p = closedPairs cap rest
      (if p.nbits + 1 = 8 then (p.takeBit v (!v)).closeByte else p.takeBit v (!v)) := by
  have hconsume : p.consume cap v (!v) =
      if p.nbits + 1 = 8 then (p.takeBit v (!v)).closeByte else p.takeBit v (!v) := by
    rw [PairLoop.consume_eq, if_neg hroom]
  have hgoes : ¬(p.consume cap v (!v)).overflow = true := by
    rw [hconsume]
    split_ifs <;> simp [hov]
  rw [← hconsume]
  exact if_neg hgoes

/-- The pairs of the bits that complete a byte put the byte into `out`. -/
theorem closedPairs_bits {p : PairLoop} (hov : p.overflow = false) (hroom : p.out.length ≠ cap) (v : Bool)
    (bits : List Bool) (hn : p.nbits + bits.length = 7) (rest : List Bool) :
    closedPairs cap ((v :: bits).flatMap bitHalves ++ rest) p = closedPairs cap rest { p with
      i := p.i + 2 * (bits.length + 1), acc := 0, nbits := 0, out := p.out ++ [(v :: bits).foldl shiftIn p.acc] } := by
  rw [List.flatMap_cons, List.append_assoc, closedPairs_bitHalves hov hroom]
  match bits, hn with
  | [], hn =>
    rw [if_pos (congrArg (· + 1) (show p.nbits = 7 from hn)), PairLoop.takeBit_halves]
    rfl
  | u :: bits, hn =>
    rw [List.length_cons] at hn
    rw [if_neg (by omega), closedPairs_bits (p := p.takeBit v (!v)) (by simpa using hov) (by simpa using hroom) u bits
      (by rw [PairLoop.takeBit_nbits]; omega), PairLoop.takeBit_halves]
    simp only [List.foldl_cons, List.length_cons, Nat.mul_add, Nat.add_assoc, Nat.add_comm]

/-- The variables of step 3 after the whole bytes `w` and no fault. -/
def PairLoop.afterBytes (w : List Byte) : PairLoop := { start with i := 1 + 16 * w.length, out := w }

/-- The levels of whole bytes give those bytes, and no fault. -/
theorem closedPairs_byteHalves {w v : List Byte} (hcap : v.length + w.length ≤ cap) :
    closedPairs cap (w.flatMap byteHalves) (.afterBytes v) = .afterBytes (v ++ w) := by
  induction w generalizing v with
  | nil => simp [closedPairs]
  | cons b w ih =>
    rw [List.length_cons] at hcap
    have hroom : v.length ≠ cap := by omega
    have hbyte : closedPairs cap (byteHalves b ++ w.flatMap byteHalves) (.afterBytes v) =
        closedPairs cap (w.flatMap byteHalves) { PairLoop.start with
          i := 1 + 16 * v.length + 16, out := v ++ [(bitsMsbFirst b).foldl shiftIn 0] } :=
      closedPairs_bits rfl hroom _ _ rfl _
    have hnext : { PairLoop.start with i := 1 + 16 * v.length + 16, out := v ++ [b] } =
        PairLoop.afterBytes (v ++ [b]) := by
      simp [PairLoop.afterBytes, Nat.mul_add, Nat.add_assoc]
    rw [List.flatMap_cons, hbyte, foldl_shiftIn_bitsMsbFirst, hnext, ih (by simp; omega), List.append_assoc,
      List.singleton_append]

end

/-! ## The whole decode of a frame (R156 to R159, R187) -/

/-- Steps 4 and 5 accept a frame as the encoder builds it (R96, R158). -/
theorem closedVerdict_wireFrame (p : List Byte) (c : Bool) :
    closedVerdict (.afterBytes (wireFrame p)) c = .frame (wireFrame p) 0 c := by
  have haligned : (1 + 16 * (wireFrame p).length) % 16 = 1 := by omega
  have hpayload : (wireFrame p).take ((wireFrame p).length - 2) = p := by simp [wireFrame]
  have hcheck : crc16 p = transmittedCrc (wireFrame p) := by rw [wireFrame, transmittedCrc_append, beWord_hi_lo]
  calc closedVerdict (.afterBytes (wireFrame p)) c = checkedFrame (wireFrame p) 0 c := by
        exact (if_neg Bool.false_ne_true).trans (if_neg (not_not_intro haligned))
    _ = .frame (wireFrame p) 0 c := by
        rw [checkedFrame, hpayload, ← hcheck, if_neg (by simp [wireFrame]), if_neg (not_not_intro rfl)]

/-- Steps 3 to 5 on the levels of a frame. -/
theorem closedFromPairs_wireFrame {cap : Nat} {p : List Byte} (hcap : p.length + 2 ≤ cap) (c : Bool) :
    closedFromPairs cap c ((wireFrame p).flatMap byteHalves) .start = (.frame (wireFrame p) 0 c, []) := by
  have hpairs : closedPairs cap ((wireFrame p).flatMap byteHalves) .start = .afterBytes (wireFrame p) :=
    closedPairs_byteHalves (v := []) (by simpa [wireFrame] using hcap)
  rw [closedFromPairs, hpairs, closedVerdict_wireFrame]
  rfl

/-- The last bit of a frame is the last bit of its checksum (R62, R96). -/
theorem wireFrame_bits (p : List Byte) :
    ∃ bits, (wireFrame p).flatMap bitsMsbFirst = bits ++ [(crc16 p).getLsbD 0] := by
  have hlast : (lo (crc16 p)).getLsbD 0 = (crc16 p).getLsbD 0 := by simp [lo]
  refine ⟨p.flatMap bitsMsbFirst ++ bitsMsbFirst (hi (crc16 p)) ++ (bitsMsbFirst (lo (crc16 p))).dropLast, ?_⟩
  rw [← hlast, wireFrame, List.flatMap_append]
  simp [bitsMsbFirst]

/-- DEC on a frame's durations: DEC.PARITY restores the half that was left out, if the last bit is 0 (R149, R187). -/
theorem closedDec_serialDurations {cfg : Config} (hw : WidthsInWindows cfg) {cap : Nat} {p : List Byte}
    (hcap : p.length + 2 ≤ cap) : closedDec cap (serialDurations cfg (serialLevels (wireFrame p))) =
      (.frame (wireFrame p) 0 (!(crc16 p).getLsbD 0), []) := by
  obtain ⟨bits, hbits⟩ := wireFrame_bits p
  have hhalves : (wireFrame p).flatMap byteHalves = (bits ++ [(crc16 p).getLsbD 0]).flatMap bitHalves := by
    rw [← hbits, List.flatMap_assoc]
    rfl
  have hsplit : (bits ++ [(crc16 p).getLsbD 0]).flatMap bitHalves =
      bits.flatMap bitHalves ++ [(crc16 p).getLsbD 0, !(crc16 p).getLsbD 0] := List.flatMap_append
  have heven : (bits.flatMap bitHalves).length % 2 = 0 := by simp [List.length_flatMap]
  have hdec := closedFromPairs_wireFrame hcap (!(crc16 p).getLsbD 0)
  rw [closedDec, serialLevels_eq, hhalves, closedLevels_serialDurations hw]
  rw [hhalves, hsplit] at hdec
  cases hv : (crc16 p).getLsbD 0 <;> simp only [hv] at hdec ⊢
  case true =>
    rw [← hdec]
    exact closedFromLevels_of_odd cap (by simp; omega)
  case false =>
    refine (closedFromLevels_of_even cap (by simp; omega)).trans ?_
    rw [← hdec]
    simp

/-- Settles O19: the closed form of DEC on the serialiser's durations. -/
theorem encodedFramesDecode : Obligations.EncodedFramesDecode := by
  rintro s p - hfit hhalf hhalf' hfull hfull' hready
  obtain ⟨d, c, hexec, hres, -⟩ := decodeIsItsClosedForm s _ hready
  rw [closedDec_serialDurations ⟨⟨hhalf, hhalf'⟩, hfull, hfull'⟩ (le_trans hfit (min_le_right _ _))] at hexec hres
  exact ⟨d, c, by rw [hexec, List.append_nil], hres⟩

end Sys2Proof.Machine
end

section
/-! PROOFS. The arbiter and the environment as equations (O26 to O32, O34, O35, O37 to O39): what each operation answers where
its phase, its guard and what it reads hold (R201 to R218, R223, R224). -/

namespace Sys2Proof.Machine

section
variable {s : State}

/-! ## The guards -/

theorem enabledIf_of {c : Bool} (hc : c = true) (m : String) (o : Out) : enabledIf m c o = o := by
  rw [hc, enabledIf_true]

theorem atPhase_of {p : HPhase} (hp : s.hphase = p) (m : String) (o : Out) : atPhase m p s o = o :=
  enabledIf_of (beq_iff_eq.mpr hp) m o

theorem hostOwnsRx_of (how : s.ifb.rOwner = .host) (o : Out) : hostOwnsRx s o = o := if_pos how

theorem hostOwnsTx_of (how : s.ifb.wOwner = .host) (o : Out) : hostOwnsTx s o = o := if_pos how

/-! ## Boot, wait and acknowledge (R201 to R203, R223, R224) -/

theorem execArbBoot_eq (hp : s.hphase = .boot) (hc : s.crc.phase = .idle) : execArbBoot s =
    if s.bootOk then .next (s.goto .arm) else .next ((s.logEvent .fatalStartup).goto .halt) :=
  (atPhase_of hp _ _).trans (enabledIf_of (crcFree_iff.mpr hc) _ _)

theorem execArbArm_eq (hp : s.hphase = .arm) :
    execArbArm s = .next ({ s with sockRegistered := decide (s.ifb.wOwner = Owner.host) }.goto .wait) :=
  atPhase_of hp _ _

theorem execArbTick_eq (hp : s.hphase = .wait) (hr : ¬SourceReady s) : execArbTick s =
    .next (({ s with wokeIrq := false, wokeSock := false }.logEvent .tick).goto .ack) :=
  (atPhase_of hp _ _).trans (enabledIf_of (by simpa using mt waitReady_iff.mp hr) _ _)

/-- Settles O26: each guard holds, and ARB.BOOT's input decides. -/
theorem bootArmAndTick : Obligations.BootArmAndTick := by
  refine fun s => ⟨fun hp hc hb => ?_, fun hp hc hb => ?_, execArbArm_eq, fun hp hi hs => ?_⟩
  · exact (execArbBoot_eq hp hc).trans (if_pos hb)
  · exact (execArbBoot_eq hp hc).trans (if_neg (by simp [hb]))
  · have hr : ¬SourceReady s := by
      rintro (hirq | ⟨hreg, hne⟩)
      · simp [hi] at hirq
      · obtain hs | hs := hs
        · simp [hs] at hreg
        · exact hne hs
    exact execArbTick_eq hp hr

theorem sockReady_eq (s : State) : sockReady s = decide (s.sockRegistered = true ∧ s.netIn ≠ []) := by
  rw [Bool.eq_iff_iff]
  simp [sockReady]

/-- Settles O27: the guard is that a source is ready. -/
theorem waitRecordsTheReadySources : Obligations.WaitRecordsTheReadySources := by
  refine fun s hp => ⟨fun hr => ?_, fun hr => ?_⟩
  · rw [← sockReady_eq]
    exact (atPhase_of hp _ _).trans (enabledIf_of (waitReady_iff.mpr hr) _ _)
  · have hnot : waitReady s = false := by simpa using mt waitReady_iff.mp hr
    refine (atPhase_of hp _ _).trans ?_
    rw [hnot, enabledIf_false]

theorem execArbAck_eq (hp : s.hphase = .ack) :
    execArbAck s = .next ({ s with irqPending := s.irqPending && !s.wokeIrq }.goto .rxTest) :=
  atPhase_of hp _ _

theorem execDevSignal_eq (ho : s.devSigOwed = true) :
    execDevSignal s = .next { s with irqPending := true, devSigOwed := false } :=
  enabledIf_of ho _ _

/-- Settles O28: a signal taken after the acknowledge sets the latch, as the latch does where both come at once. -/
theorem acknowledgeClearsAndALaterSignalWins : Obligations.AcknowledgeClearsAndALaterSignalWins := by
  refine fun s hp => ⟨execArbAck_eq hp, fun ho => ⟨_, _, execArbAck_eq hp, execDevSignal_eq ho, rfl, ?_⟩⟩
  rw [signalDuringAck, irqLatch, ho, Bool.true_or]

/-! ## The receive handler (R204 to R208) -/

/-- Settles O29: `r_owner` alone decides. -/
theorem receiveOwnershipIsTested : Obligations.ReceiveOwnershipIsTested := fun _ hp =>
  ⟨fun how => (atPhase_of hp _ _).trans (if_pos how), fun how => (atPhase_of hp _ _).trans (if_neg (by simp [how]))⟩

theorem rxStatusOk_iff {st : Word16} : rxStatusOk st = true ↔ st = 0x0001 := beq_iff_eq

section
variable (hp : s.hphase = .rxStatus) (how : s.ifb.rOwner = .host)
include hp how

theorem execArbRxstatus_of_good (hst : s.ifb.rStatus = 0x0001)
    (hlen : s.ifb.rReceivedLength.toNat ≤ s.ifb.rMaxLength.toNat) :
    execArbRxstatus s = .next ({ s with rxValid := true }.goto .rxTrunc) := by
  rw [execArbRxstatus, atPhase_of hp, hostOwnsRx_of how, if_pos (rxStatusOk_iff.mpr hst),
    if_neg (BitVec.not_lt.mpr (BitVec.le_def.mpr hlen))]

theorem execArbRxstatus_of_long (hst : s.ifb.rStatus = 0x0001)
    (hlen : s.ifb.rMaxLength.toNat < s.ifb.rReceivedLength.toNat) :
    execArbRxstatus s =
      .next (({ s with rxValid := false }.logEvent (.rxLength s.ifb.rReceivedLength)).goto .rxTrunc) := by
  rw [execArbRxstatus, atPhase_of hp, hostOwnsRx_of how, if_pos (rxStatusOk_iff.mpr hst), if_pos (BitVec.lt_def.mpr hlen)]

theorem execArbRxstatus_of_bad (hst : s.ifb.rStatus ≠ 0x0001) : execArbRxstatus s = rejectStatus s := by
  rw [execArbRxstatus, atPhase_of hp, hostOwnsRx_of how, if_neg (mt rxStatusOk_iff.mp hst)]

end

theorem rejectStatus_of_quiet (hd : s.cfg.diagDump = false) : rejectStatus s =
    .next (({ s with rxValid := false }.logEvent (.rxStatus s.ifb.rStatus)).goto .rxTrunc) := by
  rw [rejectStatus, if_neg (by simp [hd])]

theorem rejectStatus_of_dump {xs : List Byte} (hd : s.cfg.diagDump = true)
    (hxs : loadSpan .rbuf s.cfg.rCap s.rbuf 0 (dumpLength s) = .ok xs) : rejectStatus s =
      .next ((({ s with rxValid := false }.logEvent (.rxStatus s.ifb.rStatus)).logEvent (.diagDump xs)).goto .rxTrunc) := by
  rw [rejectStatus, if_pos hd, hxs, reading_ok]

/-- Settles O30: the status word, then the length test or the dump. -/
theorem receiveStatusIsValidated : Obligations.ReceiveStatusIsValidated := by
  refine fun s hp how => ⟨execArbRxstatus_of_good hp how, execArbRxstatus_of_long hp how, fun hst hd => ?_,
    fun xs hst hd hlen hcap hxs => ?_⟩
  · exact (execArbRxstatus_of_bad hp how hst).trans (rejectStatus_of_quiet hd)
  · have hload : loadSpan .rbuf s.cfg.rCap s.rbuf 0 (dumpLength s) = .ok xs := by
      rw [dumpLength, ← hlen]; exact loadSpan_of_holds hxs hcap
    rw [show exec .arbRxstatus s = rejectStatus s from execArbRxstatus_of_bad hp how hst, rejectStatus_of_dump hd hload]
    simp [State.logEvent, State.goto]

theorem execArbRxtrunc_eq (hp : s.hphase = .rxTrunc) (how : s.ifb.rOwner = .host) :
    execArbRxtrunc s = .next ((clearTruncated s).goto (if s.rxValid then .rxCopy else .rxRelease)) :=
  (atPhase_of hp _ _).trans (hostOwnsRx_of how _)

theorem execArbRxrelease_eq (hp : s.hphase = .rxRelease) (how : s.ifb.rOwner = .host) : execArbRxrelease s =
    .next ((s.setIfb { s.ifb with rOwner := .device }).goto (if s.rxValid then .rxDecode else .txDone)) :=
  (atPhase_of hp _ _).trans (hostOwnsRx_of how _)

/-- Settles O31: the flag decides what ARB.RXTRUNC clears, `rx_valid` where Host goes on. -/
theorem receiveBufferIsClearedAndReturned : Obligations.ReceiveBufferIsClearedAndReturned := by
  refine fun s how => ⟨fun hp ht => ?_, fun hp ht => ?_, fun hp => execArbRxrelease_eq hp how⟩
  · refine (execArbRxtrunc_eq hp how).trans ?_
    rw [clearTruncated, if_pos ht]
    rfl
  · refine (execArbRxtrunc_eq hp how).trans ?_
    rw [clearTruncated, if_neg (by simp [ht])]
    rfl

theorem execArbRxcopy_eq {xs : List Byte} (hp : s.hphase = .rxCopy) (how : s.ifb.rOwner = .host)
    (hlen : s.ifb.rReceivedLength.toNat = xs.length) (hcap : xs.length ≤ s.cfg.rCap) (hxs : Memory.holds s.rbuf xs) :
    execArbRxcopy s =
      .next ({ s with rxLen := xs.length, rxCopy := Memory.writeAll s.rxCopy 0 xs }.goto .rxRelease) := by
  rw [execArbRxcopy, atPhase_of hp, hostOwnsRx_of how, hlen, loadSpan_of_holds hxs hcap, reading_ok,
    storeSpan_of_fits (by omega), reading_ok]

/-- Settles O32: what is read is `xs`, and it fits `rx_copy`. -/
theorem receivePayloadIsCopied : Obligations.ReceivePayloadIsCopied := fun _ _ hp how hlen hcap hxs =>
  ⟨_, Memory.stored_writeAll _ _ _, execArbRxcopy_eq hp how hlen hcap hxs⟩

/-! ## The send handler (R210 to R212, R214) -/

theorem execArbTxdone_eq (hp : s.hphase = .txDone) : execArbTxdone s = .next ((examineTransmit s).goto .txTest) :=
  atPhase_of hp _ _

theorem txFinished_iff : txFinished s = true ↔ s.txOutstanding = true ∧ s.ifb.wOwner = .host := by
  simp [txFinished]

theorem txStatusOk_iff {st : Word16} : txStatusOk st = true ↔ st = 0x0002 := beq_iff_eq

theorem examineTransmit_of_finished (h : txFinished s = true) : examineTransmit s = { s with
    log := s.log ++ (if s.ifb.wStatus = 0x0002 then [] else [.txStatus s.ifb.wStatus]), txOutstanding := false } := by
  rw [examineTransmit, if_pos h, State.logIf_eq]
  by_cases hst : s.ifb.wStatus = 0x0002
  · rw [if_pos (txStatusOk_iff.mpr hst), if_pos hst]; rfl
  · rw [if_neg (mt txStatusOk_iff.mp hst), if_neg hst]; rfl

theorem execArbTxtest_of_quiet (hp : s.hphase = .txTest) (hw : s.wokeSock = false) :
    execArbTxtest s = .next (s.goto .arm) :=
  (atPhase_of hp _ _).trans (if_neg (by simp [hw]))

theorem execArbTxtest_of_woken {g : Datagram} {gs : List Datagram} (hp : s.hphase = .txTest) (hw : s.wokeSock = true)
    (hin : s.netIn = g :: gs) : execArbTxtest s = .next ({ s with txDgram := g, netIn := gs }.goto .txOwner) := by
  rw [execArbTxtest, atPhase_of hp, if_pos hw, hin]

/-- Settles O34: a transmit is examined exactly when it is finished, and the head of the queue is taken. -/
theorem transmitIsExaminedAndADatagramTaken : Obligations.TransmitIsExaminedAndADatagramTaken := by
  refine fun s => ⟨fun hp hf => ?_, fun hp ho hw => ?_, execArbTxtest_of_quiet, fun g gs => execArbTxtest_of_woken⟩
  · exact (execArbTxdone_eq hp).trans (by rw [examineTransmit, if_neg (mt txFinished_iff.mp hf)]; rfl)
  · exact (execArbTxdone_eq hp).trans (by rw [examineTransmit_of_finished (txFinished_iff.mpr ⟨ho, hw⟩)]; rfl)

theorem execArbTxowner_of_host (hp : s.hphase = .txOwner) (how : s.ifb.wOwner = .host) :
    execArbTxowner s = .next (s.goto .txFill) :=
  (atPhase_of hp _ _).trans (if_pos how)

theorem execArbTxowner_of_device (hp : s.hphase = .txOwner) (how : s.ifb.wOwner = .device) :
    execArbTxowner s = .next (dropDatagram (.ownership s.txDgram.length) s) :=
  (atPhase_of hp _ _).trans (if_neg (by simp [how]))

/-- Settles O35: `w_owner` alone decides. -/
theorem transmitOwnerIsTested : Obligations.TransmitOwnerIsTested := fun _ hp =>
  ⟨execArbTxowner_of_host hp, execArbTxowner_of_device hp⟩

/-- What the hand-off leaves (R214). -/
def State.handedOff (s : State) : State :=
  { s.setIfb { s.ifb with wOwner := .device } with txOutstanding := true, kickPending := true }.goto .arm

theorem execArbTxrelease_eq (hp : s.hphase = .txRelease) (how : s.ifb.wOwner = .host) :
    execArbTxrelease s = .next s.handedOff :=
  (atPhase_of hp _ _).trans (hostOwnsTx_of how _)

/-- Settles O37: the ARB.ARM that follows finds the Device owning Transmit. -/
theorem transmitBufferIsHandedOff : Obligations.TransmitBufferIsHandedOff := fun _ hp how =>
  ⟨_, execArbTxrelease_eq hp how, rfl, execArbArm_eq (s := State.handedOff _) rfl⟩

/-! ## The environment agents (R215 to R218) -/

theorem execDevRxdone_of_fits {d : List Byte} (how : s.ifb.rOwner = .device) (hmax : d.length ≤ s.ifb.rMaxLength.toNat)
    (hcap : d.length ≤ s.cfg.rCap) (st : Word16) (t : Bool) : execDevRxdone d st t s = .next { s with
      rbuf := Memory.writeAll s.rbuf 0 d, devSigOwed := true
      ifb := { s.ifb with
        rReceivedLength := BitVec.ofNat 32 d.length, rTruncated := s.ifb.rTruncated || t, rStatus := st
        rOwner := .host } } := by
  rw [execDevRxdone, enabledIf_of (beq_iff_eq.mpr how), if_neg (Nat.not_lt.mpr hmax), storeSpan_of_fits (by omega),
    reading_ok, truncatedAfter]

theorem execDevRxdone_of_long {d : List Byte} (how : s.ifb.rOwner = .device) (hmax : s.ifb.rMaxLength.toNat < d.length)
    (st : Word16) (t : Bool) : execDevRxdone d st t s = .refused (.breaksDeviceBound d.length) := by
  rw [execDevRxdone, enabledIf_of (beq_iff_eq.mpr how), if_pos hmax]

/-- Settles O38: the Device's own bound decides. -/
theorem deviceDeliversAFrame : Obligations.DeviceDeliversAFrame := fun _ _ _ _ how =>
  ⟨fun hmax hcap => ⟨_, Memory.stored_writeAll _ _ _, execDevRxdone_of_fits how hmax hcap _ _⟩,
    fun hmax => execDevRxdone_of_long how hmax _ _⟩

/-- Settles O39: the guards of DEV.TXDONE and DEV.SIGNAL hold, and NET.ARRIVE has none. -/
theorem deviceCompletesSignalsAndDatagramsArrive : Obligations.DeviceCompletesSignalsAndDatagramsArrive := fun _ =>
  ⟨fun _ how => enabledIf_of (beq_iff_eq.mpr how) _ _, execDevSignal_eq, fun _ => rfl, fun _ => rfl⟩

end

end Sys2Proof.Machine
end

section
/-! PROOFS. Host left to itself always has a step (O57): under the invariant the operation the phases select is refused by
none of its guards, and what it reads is written. -/

namespace Sys2Proof.Machine

/-- The outcome is no refusal: every guard on the way to it holds. -/
def Out.Accepted (o : Out) : Prop := ∀ r, o ≠ .refused r

namespace Out.Accepted
variable {P : State → Prop} {s t : State} {o : Out}

/-- A safe outcome that is no refusal is a next state. -/
theorem exists_next (h : Accepted o) (hsafe : Safe P o) : ∃ t, o = .next t := by
  cases o with
  | next t => exact ⟨t, rfl⟩
  | fault r => exact hsafe.elim
  | refused r => exact absurd rfl (h r)

theorem next : Accepted (.next t) := by rintro r ⟨⟩

theorem of_next (h : o = .next t) : Accepted o := h ▸ next

theorem fault {r : Fault} : Accepted (.fault r) := by rintro r ⟨⟩

theorem enabled {m : String} {c : Bool} (hc : c = true) (h : Accepted o) : Accepted (enabledIf m c o) := by
  subst hc; exact h

theorem at_phase {m : String} {p : HPhase} (hp : s.hphase = p) (h : Accepted o) : Accepted (atPhase m p s o) :=
  enabled (beq_iff_eq.mpr hp) h

theorem read {α : Type} {x : Except Fault α} {f : α → Out} (h : ∀ v, Accepted (f v)) : Accepted (reading x f) := by
  cases x with
  | ok v => exact h v
  | error r => exact fault

theorem ite {c : Prop} [Decidable c] {o' : Out} (h : Accepted o) (h' : Accepted o') :
    Accepted (if c then o else o') := by
  split_ifs <;> assumption

theorem owns_rx (hs : s.ifb.rOwner = .host) (h : Accepted o) : Accepted (hostOwnsRx s o) := by
  rw [hostOwnsRx, if_pos hs]; exact h

theorem owns_tx (hs : s.ifb.wOwner = .host) (h : Accepted o) : Accepted (hostOwnsTx s o) := by
  rw [hostOwnsTx, if_pos hs]; exact h

theorem and_then {f : State → Out} (h : Accepted o) (hf : ∀ u, Accepted (f u)) : Accepted (Out.andThen o f) := by
  cases o with
  | next u => exact hf u
  | fault r => exact fault
  | refused r => exact absurd rfl (h r)

end Out.Accepted

open Out (Accepted)

section
variable {s : State}

/-! ## The decoder's selected operation -/

/-- The sample selects the operation of its own class (R92). -/
theorem AtSample.accepted {raw : Byte} (h : AtSample s raw) : Accepted (exec (sampleOp raw) s) := by
  have shared {c : SampleClass} (hc : classify raw = c) (m : String) {f : State → Out} (hf : ∀ t, Accepted (f t)) :
      Accepted (onSample m c raw s f) := by
    rw [h.onSample_eq hc]; exact hf _
  unfold sampleOp
  cases hc : classify raw with
  | short | ambig | long => exact shared hc _ fun _ => .next
  | single | double => exact shared hc _ fun _ => .read fun _ => .next

/-- A full `acc` has room in `out`, or the decode overflows; else a pair is there (R150 to R155). -/
theorem decPair_accepted {i : Instr} (h : Inv s) (hp : s.dec.phase = .pair) (hop : decOp s = .ok i) :
    Accepted (exec i s) := by
  have hin := h.decoder.inside (by simp [hp])
  obtain ⟨-, -, -, -, hbits, hout, -⟩ := h.decoder.paired (.inl hp)
  by_cases hn : s.dec.nbits = 8
  · simp only [decOp, hp, hn, if_true] at hop
    split_ifs at hop with hroom <;> cases hop
    · exact .of_next (execDecByte_eq hin hp hn hroom)
    · exact .of_next (execDecOvf_eq hin hp hn (by omega))
  · have hi := (h.decoder.pair hp).resolve_left hn
    obtain ⟨a, b, hab⟩ := loadPair_ok h hp hi
    simp only [decOp, hp, if_neg hn, hab] at hop
    cases hop
    exact .of_next (AtPair.exec_pairOp ⟨hin, hp, by omega, hi, hab⟩)

/-- Where no CRC16 is left unfinished, the decoder's selected operation is enabled (R90). -/
theorem decOp_accepted {i : Instr} (h : Inv s) (hd : s.dec.phase ≠ .idle) (hfree : s.crc.phase = .idle)
    (hop : decOp s = .ok i) : Accepted (exec i s) := by
  have hin := h.decoder.inside hd
  cases hp : s.dec.phase with
  | idle => exact absurd hp hd
  | classify =>
    obtain ⟨raw, hraw⟩ := loadSample_ok h hp
    simp only [decOp, hp, hraw] at hop
    cases hop
    exact AtSample.accepted ⟨hin, hp, (h.decoder.classify hp).1, hraw⟩
  | parity =>
    simp only [decOp, hp] at hop
    cases hop
    exact .enabled (decodingAt_of hin hp) (.ite (.read fun _ => .next) .next)
  | pair => exact decPair_accepted h hp hop
  | align =>
    simp only [decOp, hp] at hop
    cases hop
    exact .of_next (execDecAlign_eq hin hp)
  | check =>
    simp only [decOp, hp] at hop
    split_ifs at hop with hshort <;> cases hop
    · exact .of_next (execDecRunt_eq hin hp hshort)
    · have hguard : (decodingAt .check s && decide (2 ≤ s.dec.outLen) && crcFree s.crc) = true := by
        rw [decodingAt_of hin hp, decide_eq_true (Nat.not_lt.mp hshort), crcFree_iff.mpr hfree]; rfl
      exact .enabled hguard (.read fun _ => .ite .next .next)
  | done =>
    simp only [decOp, hp] at hop
    cases hop
    exact .enabled (decodingAt_of hin hp) (.read fun _ => .next)

/-! ## The arbiter's operation -/

/-- What is written is a sequence of values. -/
theorem Memory.exists_holds {α : Type} {m : Memory α} {n : Nat} (h : Memory.written m n) :
    ∃ xs, xs.length = n ∧ Memory.holds m xs := by
  obtain ⟨xs, hxs⟩ := loadSpan_of_written (sp := .rxCopy) h le_rfl
  obtain ⟨hlen, hread⟩ := loadSpan_eq_ok.mp hxs
  exact ⟨xs, hlen, fun j hj => by simpa using (hread j (hlen ▸ hj)).2⟩

/-- Under the invariant a decode that has not begun may begin (R140, R209). -/
theorem Inv.readyToDecode (h : Inv s) (hp : s.hphase = .rxDecode) (hd : s.dec.phase = .idle) (hfresh : s.progress = .fresh) :
    ∃ xs, ReadyToDecode s xs := by
  obtain ⟨hcap, hw⟩ := h.payloads.copied (.inr hp)
  obtain ⟨xs, hlen, hxs⟩ := Memory.exists_holds hw
  exact ⟨xs, hp, hfresh, hd, h.crc_idle (by simp [CrcTurn, hp, hd]), ⟨hlen.symm, hcap, hxs⟩,
    Config.lCap_of_valid h.config⟩

theorem decodeOnce_accepted (h : Inv s) (hp : s.hphase = .rxDecode) (hd : s.dec.phase = .idle) :
    Accepted (decodeOnce s) := by
  unfold decodeOnce
  split_ifs with htaken
  · exact .next
  · have hfresh : s.progress = .fresh := by
      have hsend := mt h.parts.send (by simp [hp])
      cases hprog : s.progress <;> simp [hprog] at htaken hsend ⊢
    obtain ⟨xs, hready⟩ := h.readyToDecode hp hd hfresh
    obtain ⟨t, ht, -⟩ := decRun_of_ready hready
    exact .of_next ht

theorem fillPayload_accepted (how : s.ifb.wOwner = .host) (p : List Byte) : Accepted (fillPayload p s) := by
  unfold fillPayload
  cases encRefusal s.cfg p.length with
  | some e => exact .next
  | none => exact .and_then (.owns_tx how (.read fun _ => .next)) fun _ => .next

/-- Where both units stand still, the operation of Host's phase is enabled (R104, R201, R202). -/
theorem hostOp_accepted {i : Instr} (h : Inv s) (hd : s.dec.phase = .idle) (hfree : s.crc.phase = .idle)
    (hop : hostOp s = .ok i) : Accepted (exec i s) := by
  have hcrc := crcFree_iff.mpr hfree
  unfold hostOp at hop
  cases hp : s.hphase <;> simp only [hp] at hop <;> cases hop
  case boot => exact .at_phase hp (.enabled hcrc (.ite .next .next))
  case wait =>
    split_ifs with hready
    · exact .at_phase hp (.enabled hready .next)
    · exact .at_phase hp (.enabled (by simpa using hready) .next)
  case rxTest | txOwner => exact .at_phase hp (.ite .next .next)
  case rxStatus =>
    exact .at_phase hp <| .owns_rx (h.ownership.receiving (by rw [hp]; rfl)) <|
      .ite (.ite .next .next) (.ite (.read fun _ => .next) .next)
  case rxTrunc | rxRelease => exact .at_phase hp (.owns_rx (h.ownership.receiving (by rw [hp]; rfl)) .next)
  case rxCopy =>
    exact .at_phase hp <| .owns_rx (h.ownership.receiving (by rw [hp]; rfl)) <| .read fun _ => .read fun _ => .next
  case rxDecode =>
    exact .at_phase hp <| .enabled (by rw [hd, hcrc]; rfl) <| .and_then (decodeOnce_accepted h hp hd) fun _ => .next
  case txTest =>
    refine .at_phase hp (.ite ?_ .next)
    cases s.netIn with
    | cons g gs => exact .next
    | nil => exact .fault
  case txFill =>
    refine .at_phase hp (.enabled hcrc ?_)
    cases relayOut s.txDgram with
    | error e => exact .next
    | ok r => exact fillPayload_accepted (by rw [State.logIf_eq]; exact h.ownership.sending (by rw [hp]; rfl)) _
  case txRelease => exact .at_phase hp (.owns_tx (h.ownership.sending (by rw [hp]; rfl)) .next)
  case ack | arm | txDone => exact .at_phase hp .next

/-! ## The step -/

/-- What is selected is enabled, but for the return of a CRC16, which no selection names (R219, log entry 20). -/
theorem select_accepted {i : Instr} (h : Inv s) (hret : ¬(CrcTurn s ∧ s.crc.phase = .load)) (hsel : select s = .ok i) :
    Accepted (exec i s) := by
  by_cases hbit : CrcTurn s ∧ s.crc.phase = .bit
  · rw [select_of_crcBit hbit.1 hbit.2] at hsel
    cases hsel
    have hcnt : decide (s.crc.cnt < 8) = true := decide_eq_true (h.crcUnit hbit.2)
    exact .enabled hcnt (.of_next (onCrc_eq_next.mpr ⟨hbit.1, hbit.2, rfl⟩))
  · have hfree : s.crc.phase = .idle := by
      cases hc : s.crc.phase with
      | idle => rfl
      | load => exact absurd ⟨h.parts.crcTurn (by simp [hc]), hc⟩ hret
      | bit => exact absurd ⟨h.parts.crcTurn (by simp [hc]), hc⟩ hbit
    by_cases hd : s.hphase = .rxDecode ∧ s.dec.phase ≠ .idle
    · rw [select_of_decoding hbit hd.1 hd.2] at hsel
      exact decOp_accepted h hd.2 hfree hsel
    · rw [select_eq_hostOp hbit hd] at hsel
      exact hostOp_accepted h (by_contra fun hne => hd ⟨h.decoder.inside hne, hne⟩) hfree hsel

/-- Only `H_HALT` selects no operation (R223). -/
theorem exists_select (h : Inv s) (hp : s.hphase ≠ .halt) : ∃ i, select s = .ok i := by
  by_cases hbit : CrcTurn s ∧ s.crc.phase = .bit
  · exact ⟨_, select_of_crcBit hbit.1 hbit.2⟩
  · by_cases hd : s.hphase = .rxDecode ∧ s.dec.phase ≠ .idle
    · rw [select_of_decoding hbit hd.1 hd.2]
      exact decOp_ok h
    · rw [select_eq_hostOp hbit hd]
      unfold hostOp
      cases hphase : s.hphase with
      | halt => exact absurd hphase hp
      | _ => exact ⟨_, rfl⟩

end

/-- Settles O57: a CRC16 without a next byte returns; otherwise the selected operation is enabled, and it is safe. -/
theorem hostIsNeverStuck : Obligations.HostIsNeverStuck := by
  intro s h hfeed hp
  by_cases hret : CrcTurn s ∧ s.crc.phase = .load
  · exact ⟨_, (step_of_crcReturns hfeed hret).trans (execCrcReturn_eq hret.1 hret.2)⟩
  · obtain ⟨i, hsel⟩ := exists_select h hp
    rw [step_of_select hfeed hret hsel]
    exact (select_accepted h hret hsel).exists_next (exec_safe i h)

end Sys2Proof.Machine
end

section
/-! PROOFS. ARB.RXDECODE and ARB.TXFILL in full, and the handlers made of the arbiter's operations (O33, O36, O42, O43; R209,
R213, R221, R222). -/

namespace Sys2Proof.Machine

section
variable {s : State}

/-! ## ARB.RXDECODE (R209) -/

theorem relayIn_of_even {f : List Byte} (h : f.length % 2 = 0) :
    relayIn f = .ok (datagramOf (BitVec.ofNat 16 ((f.length - 2) / 2)) (f.take (f.length - 2))) :=
  relayIn_eq_ok.mpr ⟨by omega, rfl⟩

theorem relayIn_of_odd {f : List Byte} (hlong : 2 ≤ f.length) (h : f.length % 2 = 1) :
    relayIn f = .error (.oddFrame f.length) := by
  have hodd : (f.length - 2) % 2 = 1 := by omega
  simp only [relayIn, hodd, if_true]

/-- What ARB.RXDECODE sends and logs of DEC's result (R209). -/
inductive Delivery : DecResult → List Datagram → List Event → Prop where
  | error (e : DecError) : Delivery (.error e) [] [.decode e]
  | even (f : List Byte) (n : Nat) (k : Bool) (h : f.length % 2 = 0) : Delivery (.frame f n k)
      [datagramOf (BitVec.ofNat 16 ((f.length - 2) / 2)) (f.take (f.length - 2))] []
  | odd (f : List Byte) (n : Nat) (k : Bool) (h : f.length % 2 = 1) : Delivery (.frame f n k)
      [] [.relay (.oddFrame f.length)]

theorem deliver_of_error {e : DecError} (hr : s.dec.result = .error e) : deliver s = s.logEvent (.decode e) := by
  simp only [deliver, hr]

theorem deliver_of_relayed {f : List Byte} {n : Nat} {k : Bool} {g : Datagram} (hr : s.dec.result = .frame f n k)
    (hg : relayIn f = .ok g) (hprog : s.progress ≠ .relayed) : deliver s = s.broadcast g := by
  simp only [deliver, hr, hg, if_neg hprog]

theorem deliver_of_rejected {f : List Byte} {n : Nat} {k : Bool} {e : RlyError} (hr : s.dec.result = .frame f n k)
    (he : relayIn f = .error e) : deliver s = s.logEvent (.relay e) := by
  simp only [deliver, hr, he]

/-- Before RLY.IN has run, the result alone decides what is sent and logged. -/
theorem deliver_delivery (hprog : s.progress ≠ .relayed) (hlong : ∀ f n k, s.dec.result = .frame f n k → 2 ≤ f.length) :
    ∃ out es, deliver s = { s with netOut := s.netOut ++ out, log := s.log ++ es } ∧
      Delivery s.dec.result out es := by
  cases hr : s.dec.result with
  | error e => exact ⟨_, _, by rw [deliver_of_error hr, List.append_nil]; rfl, .error e⟩
  | frame f n k =>
    obtain heven | hodd := Nat.mod_two_eq_zero_or_one f.length
    · have hsent := deliver_of_relayed hr (relayIn_of_even heven) hprog
      exact ⟨_, _, by rw [hsent, List.append_nil]; rfl, .even f n k heven⟩
    · have hlogged := deliver_of_rejected hr (relayIn_of_odd (hlong f n k hr) hodd)
      exact ⟨_, _, by rw [hlogged, List.append_nil]; rfl, .odd f n k hodd⟩

/-- ARB.RXDECODE as one step: the decode of the closed form, and the delivery of its result. -/
theorem execArbRxdecode_of_ready {xs : List Byte} (h : ReadyToDecode s xs) : ∃ d c out es,
    execArbRxdecode s = .next { s with
      dec := d, crc := c, rxValid := false, hphase := .txDone
      netOut := s.netOut ++ out, log := s.log ++ (closedDec s.cfg.maxFrameBytes xs).2 ++ es } ∧
    d.phase = .idle ∧ c.phase = .idle ∧ d.result = (closedDec s.cfg.maxFrameBytes xs).1 ∧ Delivery d.result out es := by
  obtain ⟨u, hrun, hres, hlog⟩ := decRun_of_ready h
  obtain ⟨-, -, -, hframe, hidle⟩ := decRun_ends hrun
  have hlong f n k (hf : u.dec.result = .frame f n k) : 2 ≤ f.length :=
    ((decRun_resultSound hrun).returned hidle f n k hf).long
  have hprog : u.progress ≠ .relayed := by rw [hframe.progress]; rintro ⟨⟩
  obtain ⟨out, es, hdeliv, hdelivery⟩ := deliver_delivery hprog hlong
  refine ⟨u.dec, u.crc, out, es, ?_, hidle, hframe.crcIdle h.free, hres, hdelivery⟩
  rw [execArbRxdecode_of_fresh h.hphase h.idle h.free h.fresh hrun, State.decodeHandled, hdeliv, ← hlog, ← h.fresh,
    hframe.rest]
  rfl

/-- Settles O33: DEC is its closed form, and its result is delivered. -/
theorem receivedFrameIsDecodedAndRelayed : Obligations.ReceivedFrameIsDecodedAndRelayed := by
  intro s xs h
  obtain ⟨d, c, out, es, hexec, hd, hc, hres, hdelivery⟩ := execArbRxdecode_of_ready h
  refine ⟨d, c, out, es, hexec, hd, hc, hres, fun e hr => ?_, fun f n k hr heven => ?_, fun f n k hr hodd => ?_⟩ <;>
    rw [hr] at hdelivery
  · cases hdelivery
    exact ⟨rfl, rfl⟩
  · cases hdelivery with
    | even => exact ⟨rfl, rfl⟩
    | odd _ _ _ h => omega
  · cases hdelivery with
    | even _ _ _ h => omega
    | odd => exact ⟨rfl, rfl⟩

/-! ## ARB.TXFILL (R213) -/

theorem beWord_toNat (h l : Byte) : (beWord h l).toNat = h.toNat * 256 + l.toNat := by
  rw [beWord_eq_append, BitVec.toNat_append, ← Nat.shiftLeft_add_eq_or_of_lt l.isLt, Nat.shiftLeft_eq]

/-- What RLY.OUT logs of the header `h`, `l` before the payload `p` (R251). -/
def headerEvent (h l : Byte) (p : List Byte) : Option Event :=
  if 2 * (h.toNat * 256 + l.toNat) = p.length then none else some (.headerMismatch (h ++ l) p.length)

theorem relayOut_cons_cons (h l : Byte) (p : List Byte) : relayOut (h :: l :: p) = .ok (p, headerEvent h l p) := by
  rw [relayOut, beWord_toNat, beWord_eq_append, headerEvent]

theorem relayOut_of_short {g : Datagram} (h : g.length < 2) : relayOut g = .error (.malformed g.length) := by
  match g with
  | [] | [_] => rfl
  | _ :: _ :: _ => simp at h

section
variable (hp : s.hphase = .txFill) (hc : s.crc.phase = .idle)
include hp hc

theorem execArbTxfill_of_malformed {e : RlyError} (hout : relayOut s.txDgram = .error e) :
    execArbTxfill s = .next ((dropDatagram (.relay e) s).advance .fresh) := by
  rw [execArbTxfill, atPhase_of hp, enabledIf_of (crcFree_iff.mpr hc), hout]

theorem execArbTxfill_of_refused {p : List Byte} {m : Option Event} {e : EncError}
    (hout : relayOut s.txDgram = .ok (p, m)) (he : encRefusal s.cfg p.length = some e) :
    execArbTxfill s = .next
      ((dropDatagram (.encode e) (s.logIf (if s.progress = .fresh then m else none))).advance .fresh) := by
  have hcfg : (s.logIf (if s.progress = .fresh then m else none)).cfg = s.cfg := by rw [State.logIf_eq]
  rw [execArbTxfill, atPhase_of hp, enabledIf_of (crcFree_iff.mpr hc), hout]
  simp only [fillPayload, hcfg, he]

end

/-- The header is complained of once, by RLY.OUT or by ARB.TXFILL (log entry 26). -/
theorem headerEvent_toList (a : Progress) (h l : Byte) (p : List Byte) :
    (if a = .fresh then headerEvent h l p else none).toList =
      if a ≠ .fresh ∨ 2 * (h.toNat * 256 + l.toNat) = p.length then [] else [.headerMismatch (h ++ l) p.length] := by
  by_cases ha : a = .fresh
  · simp only [ha, if_true, ne_eq, not_true_eq_false, false_or, headerEvent]
    split_ifs <;> rfl
  · simp [ha]

/-- Settles O36: RLY.OUT's outcome, then ENC's tests, then the wire frame stored. -/
theorem datagramIsEncoded : Obligations.DatagramIsEncoded := by
  intro s hp hc how
  refine ⟨fun hshort => execArbTxfill_of_malformed hp hc (relayOut_of_short hshort), ?_⟩
  rintro h l p _ hdgram rfl
  have hout := hdgram ▸ relayOut_cons_cons h l p
  rw [← headerEvent_toList s.progress h l p]
  refine ⟨fun hodd => ?_, fun heven hlong => ?_, fun heven hfit => ?_⟩
  · exact (execArbTxfill_of_refused hp hc hout (encRefusal_of_odd hodd)).trans (by rw [State.logIf_eq]; rfl)
  · exact (execArbTxfill_of_refused hp hc hout (encRefusal_of_too_long heven hlong)).trans (by rw [State.logIf_eq]; rfl)
  · have hfill : Filling p (headerEvent h l p) s.progress s := ⟨hp, rfl, hc, how, hout, heven, hfit⟩
    refine ⟨_, s.crc.run p, Memory.stored_writeAll _ _ _, CrcUnit.run_reg _ _, rfl, hfill.execArbTxfill_eq.trans ?_⟩
    rw [State.logIf_eq, State.encoded_eq, wireFrame_length]
    rfl

/-! ## The send handler (R222) -/

/-- Host stands at the start of the send handler with the datagram `g`. -/
def State.sending (g : Datagram) (s : State) : State := ({ s with txDgram := g }.goto .txOwner).advance .fresh

/-- While the Device owns Transmit the datagram is dropped. -/
theorem sendHandler_of_device (how : s.ifb.wOwner = .device) (hfresh : s.progress = .fresh) (g : Datagram) :
    sendHandler g s =
      .next { s with txDgram := [], log := s.log ++ [.ownership g.length], hphase := .arm } := by
  have howner : execArbTxowner (s.sending g) = .next (dropDatagram (.ownership g.length) (s.sending g)) :=
    execArbTxowner_of_device rfl how
  refine (congrArg (Out.andThen · _) howner).trans ?_
  rw [Out.andThen_next, if_neg (by simp [dropDatagram]), State.sending, ← hfresh]
  rfl

/-- A datagram that ENC admits is framed, encoded and handed off. -/
theorem sendHandler_of_admitted {p : List Byte} (how : s.ifb.wOwner = .host) (hc : s.crc.phase = .idle)
    (heven : p.length % 2 = 0) (hfit : p.length + 2 ≤ s.cfg.wCap) (h l : Byte) : sendHandler (h :: l :: p) s = .next
      (((((s.sending (h :: l :: p)).goto .txFill).logIf (headerEvent h l p)).encoded p).handedToRelease).handedOff := by
  have howner : execArbTxowner (s.sending (h :: l :: p)) = .next ((s.sending (h :: l :: p)).goto .txFill) :=
    execArbTxowner_of_host rfl how
  have hfill : Filling p (headerEvent h l p) .fresh ((s.sending (h :: l :: p)).goto .txFill) :=
    ⟨rfl, rfl, hc, how, relayOut_cons_cons h l p, heven, hfit⟩
  have hrelease := execArbTxrelease_eq (s := ((((s.sending (h :: l :: p)).goto .txFill).logIf
    (headerEvent h l p)).encoded p).handedToRelease) rfl (by rw [State.logIf_eq]; exact how)
  refine (congrArg (Out.andThen · _) howner).trans ?_
  rw [Out.andThen_next, if_pos (State.goto_hphase _ _), hfill.execArbTxfill_eq, if_pos rfl, Out.andThen_next,
    if_pos (show (State.handedToRelease _).hphase = .txRelease from rfl), hrelease]

/-- Settles O42: after the hand-off the Device owns Transmit, so the second datagram is dropped. -/
theorem backpressureDropsTheSecondDatagram : Obligations.BackpressureDropsTheSecondDatagram := by
  intro s h l p g how hc heven hfit
  refine ⟨_, sendHandler_of_admitted how hc heven hfit h l, ?_, rfl, rfl, rfl, rfl, sendHandler_of_device rfl rfl g⟩
  rw [State.encoded_eq, State.logIf_eq]
  exact Memory.holds_writeAll _ _

/-! ## The receive handler (R221, R222) -/

/-- What ARB.RXSTATUS leaves (R205). -/
def State.statusTested (s : State) (v : Bool) (l : List Event) : State :=
  { s with rxValid := v, log := l }.goto .rxTrunc

/-- ARB.RXSTATUS goes on whatever the status, and finds valid only what fits (R205). -/
theorem execArbRxstatus_cases (hp : s.hphase = .rxStatus) (how : s.ifb.rOwner = .host)
    (hdump : ∃ xs, loadSpan .rbuf s.cfg.rCap s.rbuf 0 (dumpLength s) = .ok xs) : ∃ v l,
      execArbRxstatus s = .next (s.statusTested v l) ∧
        (v = true → s.ifb.rReceivedLength.toNat ≤ s.ifb.rMaxLength.toNat) := by
  by_cases hst : s.ifb.rStatus = 0x0001
  · obtain hlen | hlen := Nat.lt_or_ge s.ifb.rMaxLength.toNat s.ifb.rReceivedLength.toNat
    · exact ⟨false, _, execArbRxstatus_of_long hp how hst hlen, by simp⟩
    · exact ⟨true, s.log, execArbRxstatus_of_good hp how hst hlen, fun _ => hlen⟩
  · rw [execArbRxstatus_of_bad hp how hst]
    cases hd : s.cfg.diagDump with
    | false => exact ⟨false, _, rejectStatus_of_quiet hd, by simp⟩
    | true =>
      obtain ⟨xs, hxs⟩ := hdump
      exact ⟨false, _, rejectStatus_of_dump hd hxs, by simp⟩

/-- Whether or not the flag was set, it is clear (R206). -/
theorem clearTruncated_clears (s : State) :
    ∃ l, clearTruncated s = { s with log := l, ifb := { s.ifb with rTruncated := false } } := by
  unfold clearTruncated
  split_ifs with ht
  · exact ⟨_, rfl⟩
  · exact ⟨s.log, by rw [← Bool.eq_false_of_not_eq_true ht]⟩

/-- Host stands at the start of the receive handler. -/
def State.receiving (s : State) : State := (s.goto .rxStatus).advance .fresh

/-- Past the two checks of the receive handler. -/
def State.checked (s : State) (v : Bool) (l : List Event) : State :=
  { s with rxValid := v, log := l, ifb := { s.ifb with rTruncated := false }, progress := .fresh }

/-- The end of the receive handler: ARB.RXRELEASE, and ARB.RXDECODE when the checks passed (R222). -/
def releaseAndDecode (s : State) : Out :=
  Out.andThen (execArbRxrelease s) fun t => if t.hphase = .rxDecode then execArbRxdecode t else .next t

/-- The two checks complete, whatever the status; what is valid fits, and is copied before the end. -/
theorem receiveHandler_checked (how : s.ifb.rOwner = .host)
    (hdump : ∃ xs, loadSpan .rbuf s.cfg.rCap s.rbuf 0 (dumpLength s) = .ok xs) : ∃ v l,
      (v = true → s.ifb.rReceivedLength.toNat ≤ s.ifb.rMaxLength.toNat) ∧
      receiveHandler s = Out.andThen
        (if v then execArbRxcopy ((s.checked v l).goto .rxCopy) else .next ((s.checked v l).goto .rxRelease))
        releaseAndDecode := by
  obtain ⟨v, l, hstatus, hfits⟩ := execArbRxstatus_cases (s := s.receiving) rfl how hdump
  obtain ⟨l', hclear⟩ := clearTruncated_clears (s.receiving.statusTested v l)
  have htrunc := execArbRxtrunc_eq (s := s.receiving.statusTested v l) rfl how
  rw [hclear] at htrunc
  refine ⟨v, l', hfits, (congrArg (Out.andThen · _) hstatus).trans ?_⟩
  rw [Out.andThen_next, htrunc, Out.andThen_next]
  cases v <;> rfl

/-- Whether the frame is decoded or not, the buffer goes back to the Device and Host goes on (R208, R209). -/
theorem releaseAndDecode_ends (hp : s.hphase = .rxRelease) (how : s.ifb.rOwner = .host) (hd : s.dec.phase = .idle)
    (hc : s.crc.phase = .idle) (hfresh : s.progress = .fresh) (hroom : 2 * s.cfg.rCap + 1 ≤ s.cfg.lCap)
    (hcopied : s.rxValid = true → ∃ xs, s.rxLen = xs.length ∧ s.rxLen ≤ s.cfg.rCap ∧ Memory.holds s.rxCopy xs) :
    ∃ t, releaseAndDecode s = .next t ∧ t.ifb = { s.ifb with rOwner := .device } ∧ t.rbuf = s.rbuf ∧
      t.hphase = .txDone ∧ t.dec.phase = .idle := by
  rw [releaseAndDecode, execArbRxrelease_eq hp how, Out.andThen_next]
  cases hv : s.rxValid with
  | false => exact ⟨_, if_neg (by simp), rfl, rfl, rfl, hd⟩
  | true =>
    obtain ⟨xs, hxs⟩ := hcopied hv
    obtain ⟨d, c, out, es, hexec, hidle, -⟩ := execArbRxdecode_of_ready
      (s := (s.setIfb { s.ifb with rOwner := .device }).goto .rxDecode) ⟨rfl, hfresh, hd, hc, hxs, hroom⟩
    exact ⟨_, (if_pos rfl).trans hexec, rfl, rfl, rfl, hidle⟩

/-- Settles O43: the checks complete, what was found valid is copied, and the end is reached either way. -/
theorem receiveHandlerReturnsTheBuffer : Obligations.ReceiveHandlerReturnsTheBuffer := by
  intro s hcfg hmax how hd hc hw
  have hroom := Config.lCap_of_valid hcfg
  have hcap : s.ifb.rMaxLength.toNat = s.cfg.rCap := by
    rw [hmax, BitVec.toNat_ofNat, Nat.mod_eq_of_lt (Config.rCap_of_valid hcfg)]
  rw [← hcap] at hw
  obtain ⟨v, l, hfits, hhandler⟩ := receiveHandler_checked how (loadSpan_of_written hw (hcap ▸ min_le_right _ _))
  rw [hhandler]
  cases v with
  | false =>
    exact releaseAndDecode_ends (s := (s.checked false l).goto .rxRelease) rfl how hd hc rfl hroom (by rintro ⟨⟩)
  | true =>
    have hlen := hfits rfl
    rw [min_eq_left hlen] at hw
    obtain ⟨xs, hcount, hholds⟩ := Memory.exists_holds hw
    have hxcap : xs.length ≤ s.cfg.rCap := by omega
    rw [if_pos rfl, execArbRxcopy_eq (s := (s.checked true l).goto .rxCopy) rfl how hcount.symm hxcap hholds,
      Out.andThen_next]
    exact releaseAndDecode_ends rfl how hd hc rfl hroom fun _ => ⟨xs, rfl, hxcap, Memory.holds_writeAll _ _⟩

end

end Sys2Proof.Machine
end

section
/-! PROOFS. The phase registers, the CRC unit, the owners and the payloads that an operation may change, in one pass over the
operations; with their phases and guards, the tables of R219 and R200 (O49, O50). -/

namespace Sys2Proof.Machine

open Out (Ensures)

/-- `t` is a next state of `i` from `s` that keeps the tables of R219 and R200. Each default is for an operation that leaves
the part alone. -/
structure Confined (i : Instr) (s t : State) : Prop where
  /-- Host moves along its loop, by an operation of a phase (R219). -/
  host : t.hphase = s.hphase ∨ ∃ p, hostPhase i = some p ∧ t.hphase ∈ p.next := by exact .inl rfl
  /-- Only an operation of a decoder phase moves the decoder (R26). -/
  dec : t.dec.phase = s.dec.phase ∨ (decoderPhase i).isSome = true := by exact .inl rfl
  /-- Only an operation of a phase of the unit changes the CRC unit (R26, R326). -/
  crc : t.crc = s.crc ∨ (crcPhase i).isSome = true := by exact .inl rfl
  /-- The hand-offs of Receive (R200). -/
  rOwner : t.ifb.rOwner = s.ifb.rOwner ∨ fillsReceive i = true ∨ i = .arbRxrelease := by exact .inl rfl
  /-- The hand-offs of Transmit (R200). -/
  wOwner : t.ifb.wOwner = s.ifb.wOwner ∨ i = .arbTxrelease ∨ returnsTransmit i = true := by exact .inl rfl
  /-- Only the Device's fill writes the Receive payload (R215). -/
  rbuf : t.rbuf = s.rbuf ∨ fillsReceive i = true := by exact .inl rfl
  /-- Only the encoder writes the Transmit payload and its count, where Host owns them (R183, R221). -/
  frame : (t.wbuf, t.ifb.wLength) = (s.wbuf, s.ifb.wLength) ∨ (s.ifb.wOwner = .host ∧ fillsTransmit i = true) := by
    exact .inl rfl

section
variable {s t : State} {i : Instr}

/-- A move of Host along its loop, beside what else the operation does: by default, nothing that matters here. -/
theorem Confined.goto {p q : HPhase} (h : Confined i s t := by exact {}) (hi : hostPhase i = some p := by rfl)
    (hq : q ∈ p.next := by decide) : Confined i s (t.goto q) := { h with host := .inr ⟨p, hi, hq⟩ }

theorem Confined.advance {a : Progress} (h : Confined i s t) : Confined i s (t.advance a) := { h with }

/-! ## Every operation -/

/-- The operations of one decoder phase outside `D_IDLE` change the decoder, and DEC.CHECK the CRC unit. -/
theorem exec_decoder_confined {p : DPhase} (hi : decoderPhase i = some p) (hp : p ≠ .idle) :
    Ensures (Confined i s) (exec i s) := by
  cases i with
  | decShort _ | decAmbig _ | decLong _ =>
    exact .ite_enabled fun _ => .read fun _ => .ite_enabled fun _ => .next { dec := .inr rfl }
  | decSingle _ | decDouble _ =>
    exact .ite_enabled fun _ => .read fun _ => .ite_enabled fun _ => .read fun _ => .next { dec := .inr rfl }
  | decParity =>
    exact .ite_enabled fun _ => .ite (.read fun _ => .next { dec := .inr rfl }) (.next { dec := .inr rfl })
  | decPair1 | decPair0 | decPairf00 | decPairf11 =>
    exact .ite_enabled fun _ => .read fun _ => .ite_enabled fun _ => .next { dec := .inr rfl }
  | decByte | decDone => exact .ite_enabled fun _ => .read fun _ => .next { dec := .inr rfl }
  | decOvf | decRunt => exact .ite_enabled fun _ => .next { dec := .inr rfl }
  | decAlign => exact .ite_enabled fun _ => .ite (.next { dec := .inr rfl }) (.next { dec := .inr rfl })
  | decCheck =>
    exact .ite_enabled fun _ => .read fun _ =>
      .ite (.next { dec := .inr rfl, crc := .inr rfl }) (.next { dec := .inr rfl, crc := .inr rfl })
  | decStart | dec | arbRxdecode | rlyIn _ => exact absurd (Option.some.inj hi).symm hp
  | _ => cases hi

/-- A whole decode changes the decoder and the CRC unit. -/
theorem execDec_confined : Ensures (Confined .dec s) (execDec s) := .ite_enabled fun _ t ht => by
  obtain ⟨-, -, -, hframe, -⟩ := decRun_ends ht
  rw [hframe.rest]
  exact { dec := .inr rfl, crc := .inr rfl }

theorem execArbRxdecode_confined : Ensures (Confined .arbRxdecode s) (execArbRxdecode s) :=
  .at_phase fun _ => .ite_enabled fun _ => .and_then fun u hu => .next <| by
    obtain ⟨a, hframe⟩ := decodeOnce_frame hu
    obtain ⟨l, g, -, hdeliv⟩ := deliver_eq u
    rw [hdeliv, hframe.rest]
    exact .advance (.goto { dec := .inr rfl, crc := .inr rfl })

theorem execArbTxfill_confined : Ensures (Confined .arbTxfill s) (execArbTxfill s) :=
  .at_phase fun _ => .ite_enabled fun _ => by
    cases relayOut s.txDgram with
    | error e => exact .next (.advance .goto)
    | ok r =>
      dsimp only
      rw [State.logIf_eq]
      unfold fillPayload
      cases encRefusal s.cfg r.1.length with
      | some e => exact .next (.advance .goto)
      | none =>
        refine .and_then fun u hu => .next ?_
        obtain ⟨how, hu⟩ := encCommit_frame hu
        rw [hu]
        exact .advance (.goto { crc := .inr rfl, frame := .inr ⟨how, rfl⟩ })

theorem execEnc_confined (p : List Byte) : Ensures (Confined (.enc p) s) (execEnc p s) := .ite_enabled fun _ => by
  cases encRefusal s.cfg p.length with
  | some e => exact .next {}
  | none =>
    refine .and_then fun u hu => .next ?_
    obtain ⟨how, hu⟩ := encCommit_frame hu
    rw [hu]
    exact { crc := .inr rfl, frame := .inr ⟨how, rfl⟩ }

theorem execEncFill_confined (p : List Byte) : Ensures (Confined (.encFill p) s) (execEncFill p s) :=
  .ite_enabled fun _ => .and_then fun u hu => .next <| by
    obtain ⟨how, -, rfl⟩ := encStore_eq_next.mp hu
    exact { frame := .inr ⟨how, rfl⟩ }

theorem exec_confined (i : Instr) : Ensures (Confined i s) (exec i s) := by
  by_cases hi : ∃ p, decoderPhase i = some p ∧ p ≠ .idle
  · obtain ⟨p, hi, hp⟩ := hi
    exact exec_decoder_confined hi hp
  cases i with
  | crcInit | crcLoad _ | crcByte _ | crc16 _ => exact .ite_enabled fun _ => .next { crc := .inr rfl }
  | crcBit => exact .ite_enabled fun _ => .ite_enabled fun _ => .next { crc := .inr rfl }
  | serLevels _ | serDur _ | netArrive _ _ => exact .next {}
  | decStart => exact .ite_enabled fun _ => .next { dec := .inr rfl }
  | dec => exact execDec_confined
  | encCheck q =>
    refine .ite_enabled fun _ => ?_
    cases encRefusal s.cfg q <;> exact .next {}
  | encCrc _ => exact .ite_enabled fun _ => .next { crc := .inr rfl }
  | encFill p => exact execEncFill_confined p
  | enc p => exact execEnc_confined p
  | arbBoot => exact .at_phase fun _ => .ite_enabled fun _ => .ite (.next .goto) (.next .goto)
  | arbArm | arbAck => exact .at_phase fun _ => .next .goto
  | arbWait | arbTick => exact .at_phase fun _ => .ite_enabled fun _ => .next .goto
  | arbRxtest | arbTxowner => exact .at_phase fun _ => .ite (.next .goto) (.next .goto)
  | arbRxstatus =>
    exact .at_phase fun _ => .owns_rx <|
      .ite (.ite (.next .goto) (.next .goto)) (.ite (.read fun _ => .next .goto) (.next .goto))
  | arbRxtrunc =>
    obtain ⟨l, b, hclear⟩ := clearTruncated_eq s
    refine .at_phase fun _ => .owns_rx <| .next ?_
    rw [hclear]
    exact .goto (hq := by cases s.rxValid <;> decide)
  | arbRxcopy => exact .at_phase fun _ => .owns_rx <| .read fun _ => .read fun _ => .next .goto
  | arbRxrelease =>
    exact .at_phase fun _ => .owns_rx <|
      .next (.goto { rOwner := .inr (.inr rfl) } (hq := by cases s.rxValid <;> decide))
  | arbRxdecode => exact execArbRxdecode_confined
  | arbTxdone =>
    obtain ⟨l, hexam⟩ := examineTransmit_eq s
    refine .at_phase fun _ => .next ?_
    rw [hexam]
    exact .goto
  | arbTxtest =>
    refine .at_phase fun _ => .ite ?_ (.next .goto)
    cases s.netIn with
    | cons g gs => exact .next .goto
    | nil => exact .fault _
  | arbTxfill => exact execArbTxfill_confined
  | arbTxrelease =>
    exact .at_phase fun _ => .owns_tx fun _ => .next (.goto { wOwner := .inr (.inl rfl) })
  | devRxdone d st b =>
    exact .ite_enabled fun _ => .ite (.refused _)
      (.read fun _ => .next { rOwner := .inr (.inl rfl), rbuf := .inr rfl })
  | devTxdone st => exact .ite_enabled fun _ => .next { wOwner := .inr (.inr rfl) }
  | devSignal => exact .ite_enabled fun _ => .next {}
  | rlyIn f =>
    refine .ite_enabled fun _ => ?_
    cases relayIn f <;> exact .next {}
  | rlyOut g =>
    refine .ite_enabled fun _ => ?_
    cases relayOut g with
    | ok r =>
      dsimp only
      rw [State.logIf_eq]
      exact .next {}
    | error e => exact .next {}
  | _ => exact absurd ⟨_, rfl, by decide⟩ hi

/-- The phase an operation needs is the one it finds (R26). -/
theorem needed_eq {α : Type} {o : Option α} {a : α} (h : ∀ p, o = some p → a = p) (hsome : o.isSome = true) :
    o = some a := by
  obtain ⟨p, hp⟩ := Option.isSome_iff_exists.mp hsome
  rw [hp, h p hp]

end

/-- Settles O49: what changes a phase register or the CRC unit is an operation that needs a phase of it, and finds that
phase. -/
theorem phasesFollowTheLoop : Obligations.PhasesFollowTheLoop := by
  intro i s t h
  obtain ⟨hat, -⟩ := exec_taken h
  have hconf := exec_confined i t h
  have hloop : t.hphase ≠ s.hphase → hostPhase i = some s.hphase ∧ t.hphase ∈ s.hphase.next := by
    intro hne
    obtain ⟨p, hp, hnext⟩ := hconf.host.resolve_left hne
    rw [hat.host p hp]
    exact ⟨hp, hnext⟩
  refine ⟨hloop, fun hne => needed_eq hat.decoder (hconf.dec.resolve_left hne),
    fun hne => needed_eq hat.crc (hconf.crc.resolve_left hne), fun hhalt => ?_⟩
  by_contra hne
  obtain ⟨-, hnext⟩ := hloop (hhalt ▸ hne)
  rw [hhalt] at hnext
  cases hnext

/-- Settles O50: each change is an operation's own, and the operation finds the owner it needs. -/
theorem ownershipMovesByHandOffOnly : Obligations.OwnershipMovesByHandOffOnly := by
  intro i s t h
  have hconf := exec_confined i t h
  refine ⟨fun hne => ?_, fun hne => ?_, fun hne => ?_, fun hne => ?_⟩
  · obtain hfill | rfl := hconf.rOwner.resolve_left hne
    · exact .inl ⟨exec_fills_receive hfill h, hfill⟩
    · exact .inr ⟨exec_owns_receive rfl h, rfl⟩
  · obtain rfl | hret := hconf.wOwner.resolve_left hne
    · exact .inl ⟨exec_owns_transmit rfl h, rfl⟩
    · exact .inr ⟨exec_returns_transmit hret h, hret⟩
  · have hfill := hconf.rbuf.resolve_left hne
    exact ⟨exec_fills_receive hfill h, hfill⟩
  · refine hconf.frame.resolve_left fun hsame => ?_
    obtain ⟨hbuf, hlen⟩ := Prod.mk.inj hsame
    exact hne.elim (· hbuf) (· hlen)

end Sys2Proof.Machine
end

section
/-! PROOFS. The relay framing: RLY.IN and RLY.OUT as operations, a frame's way from one block's line to the other's, and the
one datagram a received frame becomes (O40, O41, O59; R250 to R253). -/

namespace Sys2Proof.Machine

open Out (Ensures)

section
variable {s t : State}

/-! ## RLY.IN and RLY.OUT (R250, R251) -/

theorem relayIn_append_of_even {p : List Byte} (heven : p.length % 2 = 0) (a b : Byte) :
    relayIn (p ++ [a, b]) = .ok (datagramOf (BitVec.ofNat 16 (p.length / 2)) p) := by
  have hrelay := relayIn_of_even (f := p ++ [a, b]) (by simpa using heven)
  simpa using hrelay

theorem relayIn_append_of_odd {p : List Byte} (hodd : p.length % 2 = 1) (a b : Byte) :
    relayIn (p ++ [a, b]) = .error (.oddFrame (p.length + 2)) := by
  have hrelay := relayIn_of_odd (f := p ++ [a, b]) (by simp) (by simpa using hodd)
  simpa using hrelay

theorem State.relayedIn_of_ok {f : List Byte} {g : Datagram} (hg : relayIn f = .ok g) :
    s.relayedIn f = ((s.broadcast g).setResult .relayed).advance .relayed := by
  rw [State.relayedIn, hg]

theorem State.relayedIn_of_error {f : List Byte} {e : RlyError} (he : relayIn f = .error e) :
    s.relayedIn f = (s.setResult (.rlyError e)).advance .relayed := by
  rw [State.relayedIn, he]

section
variable (hp : s.hphase = .txFill) (hfresh : s.progress = .fresh)
include hp hfresh

theorem execRlyOut_of_payload {p : List Byte} {e : Option Event} (hout : relayOut s.txDgram = .ok (p, e)) :
    execRlyOut s.txDgram s = .next (((s.logIf e).setResult (.payload p)).advance .unframed) := by
  simp [execRlyOut, hp, hfresh, hout]

theorem execRlyOut_of_malformed {e : RlyError} (hout : relayOut s.txDgram = .error e) :
    execRlyOut s.txDgram s = .next ((s.setResult (.rlyError e)).advance .ended) := by
  simp [execRlyOut, hp, hfresh, hout]

end

/-- Settles O40: RLY.IN by the parity of the frame, RLY.OUT by the length of the datagram and its header. -/
theorem relayFramesAndUnframes : Obligations.RelayFramesAndUnframes := by
  refine ⟨fun s p a b n k hp hd hprog hres => ?_, fun s hp hfresh => ⟨fun hshort => ?_, fun h l p hdgram hcount => ?_,
    fun h l p hdgram hcount => ?_⟩⟩
  · have hexec : exec (.rlyIn (p ++ [a, b])) s = .next (s.relayedIn (p ++ [a, b])) :=
      execRlyIn_of_frame hp hd hprog hres
    refine ⟨fun heven => ?_, fun hodd => ?_⟩
    · rw [hexec, State.relayedIn_of_ok (relayIn_append_of_even heven a b), datagramOf_ofNat]
      rfl
    · rw [hexec, State.relayedIn_of_error (relayIn_append_of_odd hodd a b)]
      rfl
  · exact execRlyOut_of_malformed hp hfresh (relayOut_of_short hshort)
  · have hout := hdgram ▸ relayOut_cons_cons h l p
    rw [headerEvent, if_pos hcount] at hout
    exact execRlyOut_of_payload hp hfresh hout
  · have hout := hdgram ▸ relayOut_cons_cons h l p
    rw [headerEvent, if_neg hcount] at hout
    exact execRlyOut_of_payload hp hfresh hout

/-! ## A relayed frame (R253) -/

theorem PairLoop.consume_out_length_le {cap : Nat} {p : PairLoop} (hp : p.out.length ≤ cap) (a b : Bool) :
    (p.consume cap a b).out.length ≤ cap := by
  rw [PairLoop.consume_eq]
  split_ifs with h8 hfull
  · simpa using hp
  · simp only [PairLoop.closeByte, PairLoop.takeBit_out, List.length_append, List.length_singleton]
    omega
  · simpa using hp

/-- Step 3 stops before `out` exceeds its capacity (R154). -/
theorem closedPairs_out_length_le {cap : Nat} (l : List Bool) {p : PairLoop} (hp : p.out.length ≤ cap) :
    (closedPairs cap l p).out.length ≤ cap := by
  match l with
  | [] | [_] => simpa [closedPairs] using hp
  | a :: b :: l =>
    have hq := PairLoop.consume_out_length_le hp a b
    rw [closedPairs]
    split_ifs
    · exact hq
    · exact closedPairs_out_length_le l hq

theorem soundFrame_of_closedVerdict {cap : Nat} {p : PairLoop} {comp c : Bool} {f : List Byte} {k : Nat}
    (hfits : p.out.length ≤ cap) (h : closedVerdict p comp = .frame f k c) : SoundFrame cap f := by
  rw [closedVerdict_eq, checkedFrame] at h
  split_ifs at h with _ _ hshort hcrc
  cases h
  exact ⟨not_lt.mp hshort, hfits, not_not.mp hcrc⟩

/-- What the closed form returns as a frame ends in its own checksum (R158, R160). -/
theorem soundFrame_of_closedDec {cap : Nat} {xs f : List Byte} {k : Nat} {c : Bool}
    (h : (closedDec cap xs).1 = .frame f k c) : SoundFrame cap f := by
  rw [closedDec] at h
  cases hl : closedLevels true 0 xs with
  | error e => rw [hl] at h; cases h
  | ok l =>
    rw [hl] at h
    exact soundFrame_of_closedVerdict (closedPairs_out_length_le (p := .start) _ (Nat.zero_le cap)) h

/-- RLY.OUT undoes RLY.IN: no complaint, and the payload without its checksum (R250, R251), where 16 bits hold its count. -/
theorem relayOut_of_relayIn {p : List Byte} {a b : Byte} {g : Datagram} (hcount : p.length / 2 < 2 ^ 16)
    (h : relayIn (p ++ [a, b]) = .ok g) : p.length % 2 = 0 ∧ relayOut g = .ok (p, none) := by
  obtain heven | hodd := Nat.mod_two_eq_zero_or_one p.length
  · obtain rfl := Except.ok.inj ((relayIn_append_of_even heven a b).symm.trans h)
    have hwords : 2 * (p.length / 2) = p.length := by omega
    refine ⟨heven, ?_⟩
    rw [datagramOf, relayOut, beWord_hi_lo, BitVec.toNat_ofNat, Nat.mod_eq_of_lt hcount, if_pos hwords]
  · rw [relayIn_append_of_odd hodd] at h
    cases h

/-- Settles O41: the frame is the wire frame of its payload; RLY.OUT gives the payload back and ENC frames it again. -/
theorem relayedFrameCrossesUnchanged : Obligations.RelayedFrameCrossesUnchanged := by
  rintro n xs f k c g s hn hdec hrelay hp hc how rfl hcap
  have hsound := soundFrame_of_closedDec hdec
  have hfits := hsound.fits
  obtain ⟨p, rfl⟩ : ∃ p, f = wireFrame p := ⟨_, hsound.eq_wireFrame⟩
  rw [wireFrame_length] at hcap hfits
  have hcount : p.length / 2 < 2 ^ 16 := by omega
  obtain ⟨heven, hout⟩ := relayOut_of_relayIn hcount hrelay
  have hfill : Filling p none s.progress s := ⟨hp, rfl, hc, how, hout, heven, hcap⟩
  have hexec := hfill.execArbTxfill_eq
  rw [ite_self, State.logIf_none, State.encoded_eq] at hexec
  exact ⟨_, hexec, rfl, rfl, Memory.holds_writeAll _ _, rfl⟩

/-! ## One datagram for a frame (R252) -/

/-- `t` is a next state of `i` from `s` with the same datagrams sent, and the same mark unless the operation is one of the
parts that move it or ARB.TXFILL. Each default is for an operation that leaves the field alone. -/
structure Unsent (i : Instr) (s t : State) : Prop where
  netOut : t.netOut = s.netOut := by exact rfl
  mark : t.progress = s.progress ∨ (partAfter i).isSome = true ∨ i = .arbTxfill := by exact .inl rfl

theorem DecoderFrame.netOut (h : DecoderFrame s t) : t.netOut = s.netOut := by rw [h.rest]

theorem execArbTxfill_unsent : Ensures (Unsent .arbTxfill s) (execArbTxfill s) :=
  .at_phase fun _ => .ite_enabled fun _ => by
    cases relayOut s.txDgram with
    | error e => exact .next { mark := .inr (.inr rfl) }
    | ok r =>
      dsimp only
      rw [State.logIf_eq]
      unfold fillPayload
      cases encRefusal s.cfg r.1.length with
      | some e => exact .next { mark := .inr (.inr rfl) }
      | none =>
        refine .and_then fun u hu => .next ?_
        obtain ⟨-, hu⟩ := encCommit_frame hu
        rw [hu]
        exact { mark := .inr (.inr rfl) }

theorem execEnc_unsent (p : List Byte) : Ensures (Unsent (.enc p) s) (execEnc p s) := .ite_enabled fun _ => by
  cases encRefusal s.cfg p.length with
  | some e => exact .next { mark := .inr (.inl rfl) }
  | none =>
    refine .and_then fun u hu => .next ?_
    obtain ⟨-, hu⟩ := encCommit_frame hu
    rw [hu]
    exact { mark := .inr (.inl rfl) }

/-- Only ARB.RXDECODE and RLY.IN send (R250, R252). -/
theorem exec_unsent {i : Instr} (hwhole : i ≠ .arbRxdecode) (hpart : ∀ f, i ≠ .rlyIn f) :
    Ensures (Unsent i s) (exec i s) := by
  cases i with
  | crcInit | crcLoad _ | crcByte _ | crc16 _ | decOvf | decRunt | devTxdone _ | devSignal =>
    exact .ite_enabled fun _ => .next {}
  | crcBit => exact .ite_enabled fun _ => .ite_enabled fun _ => .next {}
  | decShort _ | decAmbig _ | decLong _ | decPair1 | decPair0 | decPairf00 | decPairf11 =>
    exact .ite_enabled fun _ => .read fun _ => .ite_enabled fun _ => .next {}
  | decSingle _ | decDouble _ =>
    exact .ite_enabled fun _ => .read fun _ => .ite_enabled fun _ => .read fun _ => .next {}
  | decParity => exact .ite_enabled fun _ => .ite (.read fun _ => .next {}) (.next {})
  | decByte | decDone => exact .ite_enabled fun _ => .read fun _ => .next {}
  | decAlign => exact .ite_enabled fun _ => .ite (.next {}) (.next {})
  | decCheck => exact .ite_enabled fun _ => .read fun _ => .ite (.next {}) (.next {})
  | decStart | encCrc _ => exact .ite_enabled fun _ => .next { mark := .inr (.inl rfl) }
  | dec =>
    refine .ite_enabled fun _ t ht => ?_
    obtain ⟨-, -, -, hframe, -⟩ := decRun_ends ht
    exact { netOut := hframe.netOut, mark := .inr (.inl rfl) }
  | encCheck q =>
    refine .ite_enabled fun _ => ?_
    cases encRefusal s.cfg q <;> exact .next { mark := .inr (.inl rfl) }
  | encFill p =>
    refine .ite_enabled fun _ => .and_then fun u hu => .next ?_
    obtain ⟨-, -, rfl⟩ := encStore_eq_next.mp hu
    exact { mark := .inr (.inl rfl) }
  | enc p => exact execEnc_unsent p
  | serLevels _ | serDur _ | netArrive _ _ => exact .next {}
  | arbBoot => exact .at_phase fun _ => .ite_enabled fun _ => .ite (.next {}) (.next {})
  | arbArm | arbAck => exact .at_phase fun _ => .next {}
  | arbWait | arbTick => exact .at_phase fun _ => .ite_enabled fun _ => .next {}
  | arbRxtest | arbTxowner => exact .at_phase fun _ => .ite (.next {}) (.next {})
  | arbRxstatus =>
    exact .at_phase fun _ => .owns_rx <|
      .ite (.ite (.next {}) (.next {})) (.ite (.read fun _ => .next {}) (.next {}))
  | arbRxtrunc =>
    obtain ⟨l, b, hclear⟩ := clearTruncated_eq s
    refine .at_phase fun _ => .owns_rx <| .next ?_
    rw [hclear]
    exact {}
  | arbRxcopy => exact .at_phase fun _ => .owns_rx <| .read fun _ => .read fun _ => .next {}
  | arbRxrelease => exact .at_phase fun _ => .owns_rx <| .next {}
  | arbRxdecode => exact absurd rfl hwhole
  | arbTxdone =>
    obtain ⟨l, hexam⟩ := examineTransmit_eq s
    refine .at_phase fun _ => .next ?_
    rw [hexam]
    exact {}
  | arbTxtest =>
    refine .at_phase fun _ => .ite ?_ (.next {})
    cases s.netIn with
    | cons g gs => exact .next {}
    | nil => exact .fault _
  | arbTxfill => exact execArbTxfill_unsent
  | arbTxrelease => exact .at_phase fun _ => .owns_tx fun _ => .next {}
  | devRxdone d st b => exact .ite_enabled fun _ => .ite (.refused _) (.read fun _ => .next {})
  | rlyIn f => exact absurd rfl (hpart f)
  | rlyOut g =>
    refine .ite_enabled fun _ => ?_
    cases relayOut g with
    | ok r =>
      dsimp only
      rw [State.logIf_eq]
      exact .next { mark := .inr (.inl rfl) }
    | error e => exact .next { mark := .inr (.inl rfl) }

theorem partAfter_ne_relayed (i : Instr) : partAfter i ≠ some .relayed := by
  intro hi
  cases i <;> cases hi

/-- No operation but ARB.RXDECODE and RLY.IN moves the mark of a relayed frame. -/
theorem Unsent.keeps_relayed {i : Instr} (h : Unsent i s t) (hat : AtPhases i s) (hp : s.hphase = .rxDecode)
    (hprog : s.progress = .relayed) : t.progress = .relayed := by
  obtain hsame | hpart | rfl := h.mark
  · exact hsame.trans hprog
  · exact absurd (needed_eq hat.part hpart) (hprog ▸ partAfter_ne_relayed i)
  · exact absurd (hp.symm.trans (hat.host _ rfl)) (by decide)

theorem deliver_netOut_of_relayed (hprog : s.progress = .relayed) : (deliver s).netOut = s.netOut := by
  unfold deliver
  cases s.dec.result with
  | error e => rfl
  | frame f n c =>
    dsimp only
    cases relayIn f with
    | error e => rfl
    | ok g => exact congrArg State.netOut (if_pos hprog)

/-- ARB.RXDECODE ends the handling of the frame, and sends nothing of a relayed one. -/
theorem execArbRxdecode_netOut (h : execArbRxdecode s = .next t) :
    t.hphase = .txDone ∧ (s.progress = .relayed → t.netOut = s.netOut) := by
  obtain ⟨⟨hhost, hdec, hcrc, -⟩, -⟩ := execArbRxdecode_taken t h
  have heq := execArbRxdecode_eq (hhost _ rfl) (hdec _ rfl) (hcrc _ rfl)
  obtain ⟨u, hu, ht⟩ := Out.andThen_eq_next.mp (heq.symm.trans h)
  obtain rfl := Host.Outcome.next.inj ht
  refine ⟨rfl, fun hprog => ?_⟩
  rw [decodeOnce, if_pos (.inr hprog)] at hu
  obtain rfl := Host.Outcome.next.inj hu
  exact deliver_netOut_of_relayed hprog

theorem execRlyIn_eq_relayedIn {f : List Byte} (h : execRlyIn f s = .next t) : t = s.relayedIn f := by
  obtain ⟨-, h⟩ := enabledIf_eq_next.mp h
  rw [State.relayedIn]
  cases hr : relayIn f <;> rw [hr] at h <;> exact (Host.Outcome.next.inj h).symm

end

/-- Settles O59: ARB.RXDECODE ends the frame's handling and RLY.IN marks it; nothing else sends, and nothing else takes the
mark away. -/
theorem eachFrameLeavesOnce : Obligations.EachFrameLeavesOnce := by
  intro i s t h
  obtain ⟨hat, -⟩ := exec_taken h
  by_cases hwhole : i = .arbRxdecode
  · subst hwhole
    obtain ⟨hend, hnone⟩ := execArbRxdecode_netOut h
    exact ⟨fun hsent => ⟨hat.host _ rfl, fun hprog => hsent (hnone hprog), .inl hend⟩,
      fun _ hprog => ⟨hnone hprog, .inl hend⟩⟩
  by_cases hpart : ∃ f, i = .rlyIn f
  · obtain ⟨f, rfl⟩ := hpart
    obtain rfl := execRlyIn_eq_relayedIn h
    have hp : s.hphase = .rxDecode := hat.host _ rfl
    have hne : s.progress ≠ .relayed := by rw [hat.part _ rfl]; decide
    exact ⟨fun _ => ⟨hp, hne, .inr ⟨by rw [State.relayedIn_hphase, hp], State.relayedIn_progress s f⟩⟩,
      fun _ hprog => absurd hprog hne⟩
  have hun := exec_unsent hwhole (not_exists.mp hpart) t h
  refine ⟨fun hsent => absurd hun.netOut hsent, fun hp hprog => ⟨hun.netOut, ?_⟩⟩
  obtain ⟨hloop, -⟩ := phasesFollowTheLoop i s t h
  by_cases hsame : t.hphase = s.hphase
  · exact .inr ⟨hsame.trans hp, hun.keeps_relayed hat hp hprog⟩
  · obtain ⟨-, hnext⟩ := hloop hsame
    rw [hp] at hnext
    exact .inl (List.mem_singleton.mp hnext)

end Sys2Proof.Machine
end
